-- ==== Sys2Proof/Word.lean ====
section
/-! DEFINITION. The word types of the ETSC: every value is an unsigned integer, bit 0 is the least significant bit
(spec/00_scope.md R6; spec/20_memory.md R42). -/

namespace Sys2Proof

/-- A 32-bit word: the width of `rsp_data` (R26, R62). The `W`-bit registers `COUNT` and `LIMIT` (R11, R12; 1 <= W <= 32,
R5) are held zero-extended in it. DESIGN CHOICE, log 6. -/
abbrev Word := BitVec 32

/-- A sample, unsigned 0..65535: `SAMPLE_W` is 16 and fixed (R5, R18, R45). -/
abbrev Sample := BitVec 16

/-- The 20-bit stimulus word `STIM`, one word per step (R60). -/
abbrev StimWord := BitVec 20

end Sys2Proof
end

