-- ==== Sys2Proof/Machine/Types.lean ====
section
/-! DEFINITION. The values the registers of the ETSC take, the steps its agents can be given, and the actions they emit. -/

namespace Sys2Proof.Machine

/-- `LIFE`, the life-cycle of the trigger: its four values (spec/10_state.md R13). -/
inductive Life where
  | unarmed
  | armed
  | disarmed
  | faulted
deriving DecidableEq, Repr, Inhabited

/-- The 2-bit code of `LIFE` (R13). -/
def Life.code : Life → BitVec 2
  | .unarmed => 0
  | .armed => 1
  | .disarmed => 2
  | .faulted => 3

/-- `PHASE`, the position of the sequencer: six values, so that the reserved codes 6 and 7 cannot be written (R16, R69). -/
inductive Phase where
  | idle
  | hi
  | inc
  | lo
  | smp
  | rpt
deriving DecidableEq, Repr, Inhabited

/-- The 3-bit code of `PHASE` (R16). -/
def Phase.code : Phase → BitVec 3
  | .idle => 0
  | .hi => 1
  | .inc => 2
  | .lo => 3
  | .smp => 4
  | .rpt => 5

/-- The only state that takes part in decoding: `EDGE_PREV` for LINE, and `PHASE`, `PEND`, `LIFE` for SEQ
(spec/30_encoding.md R70). -/
structure Ctx where
  life : Life
  pend : Bool
  edgePrev : Bool
  phase : Phase
deriving DecidableEq, Repr

/-- `seq_enabled`: a SEQ step exists in the state (spec/41_sequencer.md R90). -/
def Ctx.seqEnabled (c : Ctx) : Bool :=
  decide (c.phase ≠ .idle) || (decide (c.phase = .idle) && c.pend && decide (c.life = .armed))

/-- One step of one agent, with the draws its word carries (R8, R60). `e` is the draw of the one error input the step
reads, `d` the draw of `smp_data`; steps that read neither ignore them. -/
inductive Stim where
  | line (v : Bool)
  | seq (e : Bool) (d : Sample)
  | host (e : Bool) (cmd : BitVec 3)
deriving DecidableEq, Repr, Inhabited

/-- Why a stimulus word names no step (R60): `AGENT == 3`, bit 17 set, or a must-be-0 bit set. -/
inductive Reject where
  | reservedAgent
  | bit17Set
  | lineMustBeZero
  | hostMustBeZero
deriving DecidableEq, Repr

/-- Items 1 to 3 of the initialization contract (spec/70_reset_and_hazards.md R162), the host's one-time configuration of a
collaborator: the Sample Source for single-shot unsigned reads, the Indicator Output as a digital output, initial state low,
the Edge Signal as a digital input. Item 4 is the command `ARM`. -/
inductive SetupItem where
  | sampleSource
  | indicatorOutput
  | edgeSignal
deriving DecidableEq, Repr

/-- Which of the items 1 to 3 of the contract the host has performed since reset and before arming (R162). Log 13. -/
structure Setup where
  sampleSource : Bool
  indicatorOutput : Bool
  edgeSignal : Bool
deriving DecidableEq, Repr

/-- No item performed. -/
def Setup.nothing : Setup := ⟨false, false, false⟩

/-- Items 1 to 3 all performed: "They must all be complete before item 4" (R162). -/
def Setup.complete : Setup := ⟨true, true, true⟩

/-- One more item performed; the contract requires no order among the three (R162). -/
def Setup.perform (item : SetupItem) (u : Setup) : Setup :=
  match item with
  | .sampleSource => { u with sampleSource := true }
  | .indicatorOutput => { u with indicatorOutput := true }
  | .edgeSignal => { u with edgeSignal := true }

/-- One entry of the list of moves the environment makes next: a stimulus word, the `rst` input asserted and released
(spec/70_reset_and_hazards.md R160), or the host's configuration of a collaborator, which is nothing to the block (R162,
R173). DESIGN CHOICE, log 1, 9 and 13. -/
inductive Input where
  | word (w : StimWord)
  | rst
  | setup (item : SetupItem)
deriving DecidableEq, Repr

/-- A move the environment makes when no list of inputs says which: any step of any agent with any draws, a reset, or the
configuration of a collaborator (R8, R137, R160, R162). DESIGN CHOICE, log 2. -/
inductive Move where
  | stim (st : Stim)
  | rst
  | setup (item : SetupItem)
deriving DecidableEq, Repr, Inhabited

/-- The report tuple `t = (index, fail, value)` (R66). `index` is `W` bits, held zero-extended. -/
structure Report where
  index : Word
  fail : BitVec 2
  value : Sample
deriving DecidableEq, Repr

/-- The observable actions (spec/00_scope.md R9). -/
inductive Action where
  | ind (level : Bool)
  | smpreq
  | rpt (t : Report)
  | disarmed
  | fault
  | rsp (data : Word) (err : Bool)
deriving DecidableEq, Repr

/-- The three failure classes (spec/60_exceptions.md R130). -/
inductive Failure where
  | sampleRead
  | indicatorWrite
  | triggerDisable
deriving DecidableEq, Repr

/-- The code numbers of the failure classes: labels that appear on no port (R130). -/
def Failure.code : Failure → Nat
  | .sampleRead => 1
  | .indicatorWrite => 2
  | .triggerDisable => 3

end Sys2Proof.Machine
end

