-- ==== Sys2Proof/Config.lean ====
section
/-! DEFINITION. The implementation parameters of the block (spec/00_scope.md R5) and its free values. -/

namespace Sys2Proof

/-- The parameters that a run reads: `W`, the width in bits of `COUNT`, `LIMIT` and the report index, and `EVENT_LIMIT`,
the constant that `LIMIT` holds (R5, R12). A state carries them as data, so that every statement holds for all of them;
nothing writes them. DESIGN CHOICE, log 6. -/
structure Config where
  width : Nat
  eventLimit : Word
deriving DecidableEq, Repr

/-- The default `W = 32` and the reference value `EVENT_LIMIT = 1000` (R5, R12). -/
def Config.reference : Config := ⟨32, 1000#32⟩

/-- `T_PULSE`, the physical duration of the indicator pulse: OPEN, and read by no rule (R5, R171). Log 14. -/
opaque Config.tPulse : Nat

/-- FREE VALUE. The move the environment makes when no input is listed, one for each value of the state's counter `tick`:
which agent steps, with which draws, or a reset. It stands for `TIE_ORDER` and for the free interleaving of the agents
(R5, R8, R137). It has no body, so nothing can be proved of which move it is. Log 2. -/
opaque Config.freeMove : Nat → Machine.Move

end Sys2Proof
end

