-- ==== Sys2Proof/Syntax.lean ====
section
/-! DEFINITION. The operations of the ETSC: one constructor for each of the 19 rows of spec/opcode_table.json
(spec/30_encoding.md R72). An operand is a draw that the operation reads; bits of the word that it ignores are no operand
(R60, R69; log 11). -/

namespace Sys2Proof

inductive Instr where
  /-- `LINE.FALL`: `LINE(0)` when `EDGE_PREV == 1` (R81). -/
  | lineFall
  /-- `LINE.RISE`: `LINE(1)` when `EDGE_PREV == 0` (R82). -/
  | lineRise
  /-- `LINE.HOLD0`: `LINE(0)` when `EDGE_PREV == 0` (R83). -/
  | lineHold0
  /-- `LINE.HOLD1`: `LINE(1)` when `EDGE_PREV == 1` (R83). -/
  | lineHold1
  /-- `SEQ.NONE`: a SEQ stimulus while SEQ is not enabled (R90). -/
  | seqNone
  /-- `DISPATCH`; `e` is the draw of `dis_err` (R91). -/
  | dispatch (e : Bool)
  /-- `HI`; `e` is the draw of `ind_err` (R93). -/
  | hi (e : Bool)
  /-- `INC` (R94). -/
  | inc
  /-- `LO`; `e` is the draw of `ind_err` (R95). -/
  | lo (e : Bool)
  /-- `SMP`; `e` is the draw of `smp_err`, `d` the draw of `smp_data` (R96). -/
  | smp (e : Bool) (d : Sample)
  /-- `RPT` (R97). -/
  | rpt
  /-- `NOP`, `cmd = 0b000` (R111). -/
  | nop
  /-- `ARM`, `cmd = 0b001` (R112). -/
  | arm
  /-- `DISARM`, `cmd = 0b010`; `e` is the draw of `dis_err` (R113). -/
  | disarm (e : Bool)
  /-- `RSV3`, the reserved opcode `cmd = 0b011` (R117). -/
  | rsv3
  /-- `RDSTATUS`, `cmd = 0b100` (R114). -/
  | rdstatus
  /-- `RDCOUNT`, `cmd = 0b101` (R115). -/
  | rdcount
  /-- `RDLIMIT`, `cmd = 0b110` (R116). -/
  | rdlimit
  /-- `RSV7`, the reserved opcode `cmd = 0b111` (R117). -/
  | rsv7
deriving DecidableEq, Repr

end Sys2Proof
end

