-- ==== Sys2Proof/WellFormed.lean ====
section
/-! DEFINITION. What makes a configuration legal, and when an operation is the one its step selects. The operands of an
operation are draws whose types hold exactly the values the spec allows (one bit, or 16 bits: R45, R46), so the one
check on an operation is the `when` column of the opcode table. -/

namespace Sys2Proof

open Machine

/-- The legal parameters: `1 <= W <= 32` and `0 <= EVENT_LIMIT <= 2^W - 1` (spec/00_scope.md R5). -/
def Config.wf (c : Config) : Bool :=
  decide (1 ≤ c.width) && decide (c.width ≤ 32) && decide (c.eventLimit.toNat < 2 ^ c.width)

/-- The `when` column of spec/opcode_table.json: the condition on the state under which the row is the operation that its
word names (spec/30_encoding.md R63, R64, R72). -/
def Instr.wellFormedIn (c : Ctx) : Instr → Bool
  | .lineFall => c.edgePrev
  | .lineRise => !c.edgePrev
  | .lineHold0 => !c.edgePrev
  | .lineHold1 => c.edgePrev
  | .seqNone => decide (c.phase = .idle) && !(c.pend && decide (c.life = .armed))
  | .dispatch _ => decide (c.phase = .idle) && c.pend && decide (c.life = .armed)
  | .hi _ => decide (c.phase = .hi)
  | .inc => decide (c.phase = .inc)
  | .lo _ => decide (c.phase = .lo)
  | .smp _ _ => decide (c.phase = .smp)
  | .rpt => decide (c.phase = .rpt)
  | .nop => true
  | .arm => true
  | .disarm _ => true
  | .rsv3 => true
  | .rdstatus => true
  | .rdcount => true
  | .rdlimit => true
  | .rsv7 => true

end Sys2Proof
end

