-- ==== Sys2Proof/Decode.lean ====
section
/-! DEFINITION. Decoding and encoding of the stimulus word `STIM` (spec/30_encoding.md R60 to R64, R72).

A word alone names a step of an agent (`Stim.ofWord`); the state completes the selection of the row of the opcode table
(`select`), since `EDGE_PREV`, `PHASE`, `PEND` and `LIFE` take part in decoding (R70). -/

namespace Sys2Proof

open Machine

/-! ### Fields of the word (R60) -/

/-- `AGENT`, bits 19:18. -/
def agentOf (w : StimWord) : BitVec 2 := w.extractLsb' 18 2

/-- Bit 17, which must be 0. -/
def bit17Of (w : StimWord) : Bool := w.getLsbD 17

/-- `E`, bit 16: the draw of the one error input the step reads. -/
def eOf (w : StimWord) : Bool := w.getLsbD 16

/-- `D`, bits 15:0. -/
def dOf (w : StimWord) : BitVec 16 := w.extractLsb' 0 16

/-! ### Decoding -/

/-- The step of an agent that a word names, or why it names none (R60). DESIGN CHOICE (log 10): of several reasons the
first in this order is given. -/
def Machine.Stim.ofWord (w : StimWord) : Except Reject Stim :=
  if agentOf w = 3#2 then .error .reservedAgent
  else if bit17Of w then .error .bit17Set
  else if agentOf w = 0#2 then .ok (.seq (eOf w) (dOf w))
  else if agentOf w = 1#2 then
    if (dOf w).extractLsb' 1 15 = 0#15 then .ok (.line ((dOf w).getLsbD 0)) else .error .lineMustBeZero
  else
    if (dOf w).extractLsb' 3 13 = 0#13 then .ok (.host (eOf w) ((dOf w).extractLsb' 0 3)) else .error .hostMustBeZero

/-- The operation of a LINE step, by `EDGE_PREV` and the sampled level (R63). -/
def selectLine (edgePrev v : Bool) : Instr :=
  match edgePrev, v with
  | true, false => .lineFall
  | false, true => .lineRise
  | false, false => .lineHold0
  | true, true => .lineHold1

/-- The operation of a SEQ step, by `PHASE`, `PEND` and `LIFE` (R64, R90). -/
def selectSeq (e : Bool) (d : Sample) (c : Ctx) : Instr :=
  match c.phase with
  | .idle => if c.pend && decide (c.life = .armed) then .dispatch e else .seqNone
  | .hi => .hi e
  | .inc => .inc
  | .lo => .lo e
  | .smp => .smp e d
  | .rpt => .rpt

/-- The HOST command of the 3-bit opcode `cmd` (R61). -/
def selectHost (e : Bool) (cmd : BitVec 3) : Instr :=
  match cmd with
  | 0b000#3 => .nop
  | 0b001#3 => .arm
  | 0b010#3 => .disarm e
  | 0b011#3 => .rsv3
  | 0b100#3 => .rdstatus
  | 0b101#3 => .rdcount
  | 0b110#3 => .rdlimit
  | 0b111#3 => .rsv7

/-- The one row of the opcode table that a step selects in a state (R72). -/
def select (st : Stim) (c : Ctx) : Instr :=
  match st with
  | .line v => selectLine c.edgePrev v
  | .seq e d => selectSeq e d c
  | .host e cmd => selectHost e cmd

/-- The decoder (R72): reject an invalid word; take `AGENT`; for HOST take `D[2:0]`; for LINE take `D[0]` and
`EDGE_PREV`; for SEQ take `PHASE`, `PEND` and `LIFE`. -/
def decode (w : StimWord) (c : Ctx) : Except Reject Instr :=
  match Stim.ofWord w with
  | .ok st => .ok (select st c)
  | .error why => .error why

/-- What takes part in decoding, right after reset (spec/10_state.md R27). -/
def resetCtx : Ctx := ⟨.unarmed, false, false, .idle⟩

/-- The instruction the decoder reads from a word numbered as spec/opcode_table.json numbers it, IN THE STATE RIGHT AFTER
RESET: eight rows share their word with another row and differ in the state alone, so a word without a state names no
single row (R70, R72). A number of more than 20 bits is no stimulus word. DESIGN CHOICE, log 4 and 15. -/
def decodeTableWord (_nbits w : Nat) : Option Instr :=
  if w < 2 ^ 20 then
    match decode (BitVec.ofNat 20 w) resetCtx with
    | .ok i => some i
    | .error _ => none
  else none

/-! ### Encoding, with the ignored bits 0 as in a canonical script (R60) -/

/-- `STIM = (AGENT, 0, E, D)`, the most significant field first (R60). -/
def stimWord (agent : BitVec 2) (e : Bool) (d : BitVec 16) : StimWord :=
  agent ++ 0#1 ++ BitVec.ofBool e ++ d

/-- The word of a step of an agent (R60, R61, R63, R64). -/
def Machine.Stim.toWord : Stim → StimWord
  | .line v => stimWord 1#2 false (0#15 ++ BitVec.ofBool v)
  | .seq e d => stimWord 0#2 e d
  | .host e cmd => stimWord 2#2 e (0#13 ++ cmd)

/-- The step whose selection an operation is, with every draw it does not read 0 (R61, R63, R64). -/
def Instr.stim : Instr → Stim
  | .lineFall => .line false
  | .lineRise => .line true
  | .lineHold0 => .line false
  | .lineHold1 => .line true
  | .seqNone => .seq false 0
  | .dispatch e => .seq e 0
  | .hi e => .seq e 0
  | .inc => .seq false 0
  | .lo e => .seq e 0
  | .smp e d => .seq e d
  | .rpt => .seq false 0
  | .nop => .host false 0b000#3
  | .arm => .host false 0b001#3
  | .disarm e => .host e 0b010#3
  | .rsv3 => .host false 0b011#3
  | .rdstatus => .host false 0b100#3
  | .rdcount => .host false 0b101#3
  | .rdlimit => .host false 0b110#3
  | .rsv7 => .host false 0b111#3

/-- The word of an operation; every operation is one word (R60, R70). -/
def encode (i : Instr) : StimWord := i.stim.toWord

/-! ### The opcode table itself (spec/opcode_table.json, R72) -/

/-- A row: `STIM & mask == match` and the condition `cond` on the state select it. -/
structure Row where
  mnemonic : String
  matchBits : StimWord
  mask : StimWord
  cond : Ctx → Bool

/-- The row selects the step that the word names in the state. -/
def Row.selects (r : Row) (w : StimWord) (c : Ctx) : Bool :=
  decide (w &&& r.mask = r.matchBits) && r.cond c

/-- The 4 rows of class LINE. -/
def lineRows : List Row := [
  ⟨"LINE.FALL", 0x40000#20, 0xEFFFF#20, fun c => c.edgePrev⟩,
  ⟨"LINE.RISE", 0x40001#20, 0xEFFFF#20, fun c => !c.edgePrev⟩,
  ⟨"LINE.HOLD0", 0x40000#20, 0xEFFFF#20, fun c => !c.edgePrev⟩,
  ⟨"LINE.HOLD1", 0x40001#20, 0xEFFFF#20, fun c => c.edgePrev⟩]

/-- The 7 rows of class SEQ. -/
def seqRows : List Row := [
  ⟨"SEQ.NONE", 0x00000#20, 0xE0000#20,
    fun c => decide (c.phase = .idle) && !(c.pend && decide (c.life = .armed))⟩,
  ⟨"DISPATCH", 0x00000#20, 0xE0000#20,
    fun c => decide (c.phase = .idle) && (c.pend && decide (c.life = .armed))⟩,
  ⟨"HI", 0x00000#20, 0xE0000#20, fun c => decide (c.phase = .hi)⟩,
  ⟨"INC", 0x00000#20, 0xE0000#20, fun c => decide (c.phase = .inc)⟩,
  ⟨"LO", 0x00000#20, 0xE0000#20, fun c => decide (c.phase = .lo)⟩,
  ⟨"SMP", 0x00000#20, 0xE0000#20, fun c => decide (c.phase = .smp)⟩,
  ⟨"RPT", 0x00000#20, 0xE0000#20, fun c => decide (c.phase = .rpt)⟩]

/-- The 8 rows of class HOST, each selected in every state. -/
def hostRows : List Row := [
  ⟨"NOP", 0x80000#20, 0xEFFFF#20, fun _ => true⟩,
  ⟨"ARM", 0x80001#20, 0xEFFFF#20, fun _ => true⟩,
  ⟨"DISARM", 0x80002#20, 0xEFFFF#20, fun _ => true⟩,
  ⟨"RSV3", 0x80003#20, 0xEFFFF#20, fun _ => true⟩,
  ⟨"RDSTATUS", 0x80004#20, 0xEFFFF#20, fun _ => true⟩,
  ⟨"RDCOUNT", 0x80005#20, 0xEFFFF#20, fun _ => true⟩,
  ⟨"RDLIMIT", 0x80006#20, 0xEFFFF#20, fun _ => true⟩,
  ⟨"RSV7", 0x80007#20, 0xEFFFF#20, fun _ => true⟩]

/-- The whole table, 19 rows. -/
def opcodeRows : List Row := lineRows ++ seqRows ++ hostRows

/-- The mnemonic of an operation, as the table spells it. -/
def Instr.mnemonic : Instr → String
  | .lineFall => "LINE.FALL"
  | .lineRise => "LINE.RISE"
  | .lineHold0 => "LINE.HOLD0"
  | .lineHold1 => "LINE.HOLD1"
  | .seqNone => "SEQ.NONE"
  | .dispatch _ => "DISPATCH"
  | .hi _ => "HI"
  | .inc => "INC"
  | .lo _ => "LO"
  | .smp _ _ => "SMP"
  | .rpt => "RPT"
  | .nop => "NOP"
  | .arm => "ARM"
  | .disarm _ => "DISARM"
  | .rsv3 => "RSV3"
  | .rdstatus => "RDSTATUS"
  | .rdcount => "RDCOUNT"
  | .rdlimit => "RDLIMIT"
  | .rsv7 => "RSV7"

end Sys2Proof
end

