-- ==== Sys2Proof/Machine/State.lean ====
section
/-! DEFINITION. The state of the ETSC, why a step can stop, and the state after reset (spec/10_state.md). -/

namespace Sys2Proof.Machine

/-- Everything the spec gives the machine: the registers of R10, the parameters of R5 (`LIMIT` is `cfg.eventLimit`, R12),
the trace of R9. The last three fields are the model's own: what the host has configured (log 13) and what the environment
does next (log 1, 2). -/
structure State where
  /-- The parameters `W` and `EVENT_LIMIT` (R5); nothing writes them. -/
  cfg : Config
  /-- `COUNT`, `W` bits, zero-extended (R11). -/
  count : Word
  /-- `LIFE` (R13). -/
  life : Life
  /-- `PEND`, the pending latch (R14). -/
  pend : Bool
  /-- `EDGE_PREV`, the level at the previous LINE step (R15). -/
  edgePrev : Bool
  /-- `PHASE`, the sequencer's position (R16). -/
  phase : Phase
  /-- `IND`, the level of output `ind` (R17). -/
  ind : Bool
  /-- `SVAL`, the SampleReading (R18). -/
  sval : Sample
  /-- `SFAIL`, a SampleReadFailure in the event in progress (R19). -/
  sfail : Bool
  /-- `IFAIL`, an IndicatorWriteFailure in the event in progress (R19). -/
  ifail : Bool
  /-- The trace of observable actions, oldest first (spec/00_scope.md R9; log 8). -/
  trace : List Action
  /-- The model's own record of the host's duty before `ARM`, items 1 to 3 of the initialization contract
  (spec/70_reset_and_hazards.md R162). Outside the block: no operation reads or writes it (log 13). -/
  setup : Setup
  /-- The model's own: the inputs the environment gives next, oldest first (log 1). -/
  script : List Input
  /-- The model's own: the counter to which the free environment move is applied (log 2). -/
  tick : Nat
deriving DecidableEq, Repr

/-- Why the machine stops with a fault. -/
inductive Fault where
  /-- Raised by the meaning of a LINE or SEQ row outside the row's `when` condition: there the step does not exist
  (`stuck`, spec/93_implementation_defined.md U7; spec/90_conflicts.md C11). Safe: the decoder selects a row only where its
  condition holds, so no step of the machine raises it. Log 5. -/
  | noSuchStep
deriving DecidableEq, Repr

/-- Why the model gives a step no meaning. -/
inductive Refusal where
  /-- Raised by an arm of `exec` whose instruction has no meaning yet; no arm does. Safe. -/
  | notModelled (mnemonic : String)
  /-- Raised by `step` where the listed inputs hold a word that names no step: a script holding one is rejected as a
  whole, by the word's position and the reason (spec/30_encoding.md R60, R69; spec/93_implementation_defined.md U15).
  Safe. Log 10. -/
  | invalidStim (position : Nat) (why : Reject)
deriving DecidableEq, Repr

/-- `LIMIT`: equal to `EVENT_LIMIT` at every moment, no flop (R12). -/
def State.limit (s : State) : Word := s.cfg.eventLimit

/-- The reset values of R27, for any parameters, with an empty trace (spec/70_reset_and_hazards.md R160). The model's own
fields `script` and `tick` start empty and at 0 (DESIGN CHOICE, log 1 and 2); the contract of R162 is to be performed
after every reset, so `setup` starts with nothing performed (log 13). -/
def State.resetWith (c : Config) : State where
  cfg := c
  count := 0
  life := .unarmed
  pend := false
  edgePrev := false
  phase := .idle
  ind := false
  sval := 0
  sfail := false
  ifail := false
  trace := []
  setup := Setup.nothing
  script := []
  tick := 0

/-- The machine right after reset (R27, R161), with the default `W` and the reference `EVENT_LIMIT` (R5). -/
def State.reset : State := State.resetWith Config.reference

/-- What one step or one operation ends in. -/
abbrev Outcome := Host.Outcome State Fault Refusal

end Sys2Proof.Machine
end

