-- ==== Sys2Proof/Machine/Operands.lean ====
section
/-! DEFINITION. Operand assembly, widths and packing (spec/30_encoding.md R61, R66, R68; spec/41_sequencer.md R100). -/

namespace Sys2Proof.Machine

/-- The register number `k = cmd[1:0]` of a read command (R41, R61, R68). -/
def regNumber (cmd : BitVec 3) : BitVec 2 := cmd.extractLsb' 0 2

/-- `cmd[2]`, the class of a command: 0 = control, 1 = register read (R61). -/
def isReadClass (cmd : BitVec 3) : Bool := cmd.getLsbD 2

/-- `zext_32` of a `W`-bit register: the field's low `W` bits, zero-extended to `rsp_data` (R6, R68). A register holds no
other bits (invariant V1 with R5), so this is the field itself in every state a run reaches. -/
def zext32 (w : Nat) (v : Word) : Word := BitVec.ofNat 32 (v.toNat % 2 ^ w)

/-- `COUNT + 1` on `W` bits (R94, R100): computed in the naturals and narrowed to `W` bits. DEDUCED (log 7): at all ones,
which no run increments, a `W`-bit register wraps to 0. -/
def incr (w : Nat) (c : Word) : Word := BitVec.ofNat 32 ((c.toNat + 1) % 2 ^ w)

/-- The report's `fail` field: `fail[0] = SFAIL`, `fail[1] = IFAIL` (R66). -/
def failField (sfail ifail : Bool) : BitVec 2 := BitVec.ofBool ifail ++ BitVec.ofBool sfail

/-- `RPTWORD`, `W + 18` bits: `value` in bits 15:0, `fail` in bits 17:16, `index` from bit 18 up (R66). -/
def rptWord (w : Nat) (t : Report) : BitVec (w + 18) :=
  BitVec.ofNat (w + 18) (t.index.toNat * 2 ^ 18 + t.fail.toNat * 2 ^ 16 + t.value.toNat)

end Sys2Proof.Machine
end

