-- ==== Sys2Proof/Machine/Flags.lean ====
section
/-! DEFINITION. Derived signals, valid at every moment (spec/10_state.md R20), the `STATUS` view (R21), and the conditions
the steps test. -/

namespace Sys2Proof.Machine

/-- `at_limit`: the limit comparator `COUNT >= LIMIT`, unsigned (R20, R100). -/
def State.atLimit (s : State) : Bool := decide (s.limit ≤ s.count)

/-- `armed`: `LIFE == ARMED`, the document's TriggerArmed (R13, R20). -/
def State.armedOut (s : State) : Bool := decide (s.life = .armed)

/-- `fault`: `LIFE == FAULTED` (R20, R147). -/
def State.faultOut (s : State) : Bool := decide (s.life = .faulted)

/-- `busy`: `PHASE != IDLE` (R20). -/
def State.busyOut (s : State) : Bool := decide (s.phase ≠ .idle)

/-- What of the state takes part in decoding (R70). -/
def State.ctx (s : State) : Ctx := ⟨s.life, s.pend, s.edgePrev, s.phase⟩

/-- `seq_enabled` (R90). -/
def State.seqEnabled (s : State) : Bool := s.ctx.seqEnabled

/-- A falling edge: `EDGE_PREV == 1` and the sampled level 0 (R15, R80). -/
def State.falls (s : State) (v : Bool) : Bool := s.edgePrev && !v

/-- `STATUS`, 32 bits, from bit 31 down: reserved 31:10 read as 0, `ATLIM`, `LINE`, `PHASE`, `BUSY`, `IND`, `PEND`, `LIFE`
(R21). -/
def State.status (s : State) : Word :=
  0#22 ++ BitVec.ofBool s.atLimit ++ BitVec.ofBool s.edgePrev ++ s.phase.code ++ BitVec.ofBool s.busyOut
    ++ BitVec.ofBool s.ind ++ BitVec.ofBool s.pend ++ s.life.code

end Sys2Proof.Machine
end

