-- ==== Sys2Proof/Machine/Ops.lean ====
section
/-! DEFINITION. The shared operations: emitting actions, recording a failure, the three external primitives, the disarm
primitive, entry to and return from the callback, the host's response and register read, reset. -/

namespace Sys2Proof.Machine

/-- `emit a`: append an action to the trace (spec/00_scope.md R7, R9). -/
def State.emit (a : Action) (s : State) : State := { s with trace := s.trace ++ [a] }

/-- Meeting a failure (spec/60_exceptions.md R130 to R133): it is recorded, never delivered to a handler, and the step
goes on. A SampleReadFailure sets `SFAIL`, an IndicatorWriteFailure sets `IFAIL`, a TriggerDisableFailure makes `LIFE`
FAULTED and emits `FAULT`. -/
def State.raise (f : Failure) (s : State) : State :=
  match f with
  | .sampleRead => { s with sfail := true }
  | .indicatorWrite => { s with ifail := true }
  | .triggerDisable => ({ s with life := .faulted }).emit .fault

/-- `IndWrite(v)` with the draw `e` of `ind_err` (spec/20_memory.md R46): `IND` takes the level whatever `e` is. -/
def State.indWrite (v e : Bool) (s : State) : State :=
  let t := ({ s with ind := v }).emit (.ind v)
  if e then t.raise .indicatorWrite else t

/-- `SampleRead()` with the draws `e` of `smp_err` and `d` of `smp_data`, and what `SMP` does with the answer (R45, R96):
on a failure `d` is ignored and `SVAL` is 0. -/
def State.sampleRead (e : Bool) (d : Sample) (s : State) : State :=
  let t := s.emit .smpreq
  if e then ({ t with sval := 0 }).raise .sampleRead else { t with sval := d, sfail := false }

/-- The tuple `(index, fail, value)` that `RPT` hands to the sink (R66, R97). -/
def State.reportTuple (s : State) : Report := ⟨s.count, failField s.sfail s.ifail, s.sval⟩

/-- `Report(t)` (R47): always completes in its step. -/
def State.report (t : Report) (s : State) : State := s.emit (.rpt t)

/-- Enabling the trigger (spec/42_host_commands.md R112): UNARMED becomes ARMED; no other value of `LIFE` is left. -/
def State.arm (s : State) : State := { s with life := if s.life = .unarmed then .armed else s.life }

/-- `Disarm(e)` with the draw `e` of `dis_err` (spec/41_sequencer.md R92): acts only when `LIFE == ARMED`. -/
def State.disarm (e : Bool) (s : State) : State :=
  if s.life = .armed then
    let t := { s with pend := false }
    if e then t.raise .triggerDisable else ({ t with life := .disarmed }).emit .disarmed
  else s

/-- Trap entry (R91, R138): taking the pending edge event. It saves nothing; it clears `PEND` and either accepts the event
(`PHASE` becomes HI) or, at the limit, disarms and returns at once. -/
def State.takeEvent (e : Bool) (s : State) : State :=
  let t := { s with pend := false }
  if s.atLimit then t.disarm e else { t with phase := .hi }

/-- Trap return (R97, R139): `PHASE` becomes IDLE and the transients are cleared; nothing is restored. -/
def State.returnFromEvent (s : State) : State :=
  { s with sval := 0, sfail := false, ifail := false, phase := .idle }

/-- The host response `RSP(data, err)` (spec/30_encoding.md R62). -/
def State.respond (data : Word) (err : Bool) (s : State) : State := s.emit (.rsp data err)

/-- `RegRead(k)`: the host read space; number 3 is reserved (spec/20_memory.md R41). -/
def State.regRead (k : BitVec 2) (s : State) : Option Word :=
  match k with
  | 0#2 => some s.status
  | 1#2 => some (zext32 s.cfg.width s.count)
  | 2#2 => some (zext32 s.cfg.width s.limit)
  | 3#2 => none

/-- The response to a command of the read class: the register's value, or `RSP(0, 1)` for a number that names nothing
(R43, R62, R117). -/
def State.respondRead (k : BitVec 2) (s : State) : State :=
  match s.regRead k with
  | some data => s.respond data false
  | none => s.respond 0 true

/-- The input `rst` asserted and released (spec/70_reset_and_hazards.md R160): every register at its reset value, an empty
trace, whatever was in progress abandoned. The parameters are unaffected (R27); what the environment does next is not the
block's to change. DESIGN CHOICE, log 9. -/
def State.applyReset (s : State) : State :=
  { State.resetWith s.cfg with script := s.script, tick := s.tick }

/-- The host configures a collaborator (spec/70_reset_and_hazards.md R162, items 1 to 3): nothing to the block (R173), and
recorded only before arming, since the items must be complete before `ARM`. DESIGN CHOICE, log 13. -/
def State.configure (item : SetupItem) (s : State) : State :=
  { s with setup := if s.life = .unarmed then s.setup.perform item else s.setup }

/-- The effect of a LINE or SEQ row where its `when` condition holds; elsewhere the step does not exist (R72;
spec/93_implementation_defined.md U7; spec/90_conflicts.md C11). Log 5. -/
def whenSelected (i : Instr) (s t : State) : Outcome :=
  if i.wellFormedIn s.ctx then .next t else .fault .noSuchStep

end Sys2Proof.Machine
end

