-- ==== Sys2Proof/Machine/HostCmd.lean ====
section
/-! DEFINITION. The HOST operations: arm, disarm, snapshot reads (spec/42_host_commands.md R110 to R117). Each is enabled in
every state and always answers one `RSP(data, err)`. -/

namespace Sys2Proof.Machine

/-- `NOP` (R111). -/
def execNop (s : State) : Outcome := .next (s.respond 0 false)

/-- `ARM` (R112): UNARMED becomes ARMED; in every other state of the trigger nothing. -/
def execArm (s : State) : Outcome := .next (s.arm.respond 0 false)

/-- `DISARM(e)` (R113): the disarm primitive, then the response. -/
def execDisarm (e : Bool) (s : State) : Outcome := .next ((s.disarm e).respond 0 false)

/-- `RSV3`, the reserved control opcode (R117). -/
def execRsv3 (s : State) : Outcome := .next (s.respond 0 true)

/-- `RDSTATUS`, register number 0 (R114). -/
def execRdstatus (s : State) : Outcome := .next (s.respondRead (regNumber 0b100#3))

/-- `RDCOUNT`, register number 1 (R115). -/
def execRdcount (s : State) : Outcome := .next (s.respondRead (regNumber 0b101#3))

/-- `RDLIMIT`, register number 2 (R116). -/
def execRdlimit (s : State) : Outcome := .next (s.respondRead (regNumber 0b110#3))

/-- `RSV7`, the read of the reserved register number 3 (R117). -/
def execRsv7 (s : State) : Outcome := .next (s.respondRead (regNumber 0b111#3))

end Sys2Proof.Machine
end

