-- ==== Sys2Proof/Machine/Line.lean ====
section
/-! DEFINITION. The LINE operations: the edge detector and the pending latch (spec/40_line_events.md R80 to R83). -/

namespace Sys2Proof.Machine

/-- `LINE(v)`, the common part of every LINE step (R80): `EDGE_PREV` follows the line always, and a falling edge is
latched while `LIFE == ARMED`. -/
def State.sampleLine (v : Bool) (s : State) : State :=
  { s with edgePrev := v, pend := s.pend || (s.falls v && decide (s.life = .armed)) }

/-- `LINE.FALL` (R81). -/
def execLineFall (s : State) : Outcome := whenSelected .lineFall s (s.sampleLine false)

/-- `LINE.RISE` (R82). -/
def execLineRise (s : State) : Outcome := whenSelected .lineRise s (s.sampleLine true)

/-- `LINE.HOLD0` (R83). -/
def execLineHold0 (s : State) : Outcome := whenSelected .lineHold0 s (s.sampleLine false)

/-- `LINE.HOLD1` (R83). -/
def execLineHold1 (s : State) : Outcome := whenSelected .lineHold1 s (s.sampleLine true)

end Sys2Proof.Machine
end

