-- ==== Sys2Proof/Machine/Seq.lean ====
section
/-! DEFINITION. The SEQ operations: dispatch and the callback's micro-ops (spec/41_sequencer.md R90 to R97). -/

namespace Sys2Proof.Machine

/-- `SEQ.NONE`: SEQ is not enabled; the stimulus changes nothing and emits nothing (R90). -/
def execSeqNone (s : State) : Outcome := whenSelected .seqNone s s

/-- `DISPATCH(e)`: entry to the callback, with the limit check (R91). -/
def execDispatch (e : Bool) (s : State) : Outcome := whenSelected (.dispatch e) s (s.takeEvent e)

/-- `HI(e)`: pulse start (R93). -/
def execHi (e : Bool) (s : State) : Outcome :=
  whenSelected (.hi e) s { s.indWrite true e with phase := .inc }

/-- `INC`: the count (R94). -/
def execInc (s : State) : Outcome :=
  whenSelected .inc s { s with count := incr s.cfg.width s.count, phase := .lo }

/-- `LO(e)`: pulse end (R95). -/
def execLo (e : Bool) (s : State) : Outcome :=
  whenSelected (.lo e) s { s.indWrite false e with phase := .smp }

/-- `SMP(e, d)`: the sample (R96). -/
def execSmp (e : Bool) (d : Sample) (s : State) : Outcome :=
  whenSelected (.smp e d) s { s.sampleRead e d with phase := .rpt }

/-- `RPT`: the report, and the return from the callback (R97). -/
def execRpt (s : State) : Outcome :=
  whenSelected .rpt s (s.report s.reportTuple).returnFromEvent

end Sys2Proof.Machine
end

