-- ==== Sys2Proof/Machine/Dispatch.lean ====
section
/-! DEFINITION. One arm per operation of spec/opcode_table.json. -/

namespace Sys2Proof.Machine

def exec (i : Instr) (s : State) : Host.Outcome State Fault Refusal :=
  match i with
  | .lineFall => Sys2Proof.Machine.execLineFall s
  | .lineRise => Sys2Proof.Machine.execLineRise s
  | .lineHold0 => Sys2Proof.Machine.execLineHold0 s
  | .lineHold1 => Sys2Proof.Machine.execLineHold1 s
  | .seqNone => Sys2Proof.Machine.execSeqNone s
  | .dispatch e => Sys2Proof.Machine.execDispatch e s
  | .hi e => Sys2Proof.Machine.execHi e s
  | .inc => Sys2Proof.Machine.execInc s
  | .lo e => Sys2Proof.Machine.execLo e s
  | .smp e d => Sys2Proof.Machine.execSmp e d s
  | .rpt => Sys2Proof.Machine.execRpt s
  | .nop => Sys2Proof.Machine.execNop s
  | .arm => Sys2Proof.Machine.execArm s
  | .disarm e => Sys2Proof.Machine.execDisarm e s
  | .rsv3 => Sys2Proof.Machine.execRsv3 s
  | .rdstatus => Sys2Proof.Machine.execRdstatus s
  | .rdcount => Sys2Proof.Machine.execRdcount s
  | .rdlimit => Sys2Proof.Machine.execRdlimit s
  | .rsv7 => Sys2Proof.Machine.execRsv7 s

end Sys2Proof.Machine
end

