-- ==== Sys2Proof/Machine/Run.lean ====
section
/-! DEFINITION. What one input does, the check of a list of inputs, and runs of steps (spec/00_scope.md R8;
spec/30_encoding.md R60, R69). -/

namespace Sys2Proof.Machine

/-- A step of an agent in a state: the operation it selects there (R72). -/
def execStim (st : Stim) (s : State) : Outcome := exec (select st s.ctx) s

/-- A move of the environment. -/
def execMove (m : Move) (s : State) : Outcome :=
  match m with
  | .stim st => execStim st s
  | .rst => .next s.applyReset
  | .setup item => .next (s.configure item)

/-- One listed input: decode its word in the state and run the operation, or reset, or configure a collaborator. -/
def execInput (inp : Input) (s : State) : Outcome :=
  match inp with
  | .word w =>
    match decode w s.ctx with
    | .ok i => exec i s
    | .error why => .refused (.invalidStim 0 why)
  | .rst => .next s.applyReset
  | .setup item => .next (s.configure item)

/-- The first word of a list that names no step, with its position, counted from `k` (R60, R69). -/
def firstInvalid (k : Nat) : List Input → Option (Nat × Reject)
  | [] => none
  | .rst :: rest => firstInvalid (k + 1) rest
  | .setup _ :: rest => firstInvalid (k + 1) rest
  | .word w :: rest =>
    match Stim.ofWord w with
    | .ok _ => firstInvalid (k + 1) rest
    | .error why => some (k, why)

/-- One atomic step. With inputs listed: a list that holds an invalid word is rejected as a whole, by name and position
(R69); otherwise the first input is taken off the list and happens. With none listed, the environment makes a free move
(log 1, 2). -/
def stepOnce (s : State) : Outcome :=
  match s.script with
  | [] => execMove (Config.freeMove s.tick) { s with tick := s.tick + 1 }
  | inp :: rest =>
    match firstInvalid 0 (inp :: rest) with
    | some (k, why) => .refused (.invalidStim k why)
    | none => execInput inp { s with script := rest }

/-- A run of steps in the order given, stopping where one stops. -/
def runStims : List Stim → State → Outcome
  | [], s => .next s
  | st :: rest, s =>
    match execStim st s with
    | .next t => runStims rest t
    | .fault f => .fault f
    | .refused r => .refused r

/-- How many of the steps of a run are `DISPATCH` steps, that is, delivered edge events (spec/41_sequencer.md R101). -/
def dispatches : List Stim → State → Nat
  | [], _ => 0
  | st :: rest, s =>
    (match select st s.ctx with
      | .dispatch _ => 1
      | _ => 0)
    + (match execStim st s with
      | .next t => dispatches rest t
      | .fault _ => 0
      | .refused _ => 0)

/-- A number as a stimulus word; a number of more than 20 bits is none, and becomes the invalid word with the reserved
agent, which a step refuses. Log 15. -/
def inputOfNat (w : Nat) : Input :=
  .word (if w < 2 ^ 20 then BitVec.ofNat 20 w else 0xC0000#20)

end Sys2Proof.Machine
end

