-- ==== Sys2Proof/Machine/Step.lean ====
section
/-! DEFINITION. One step of the machine, and the placing of a word where the step takes its next one. -/

namespace Sys2Proof.Machine

/-- One atomic step of one agent, or a reset (spec/00_scope.md R8; spec/20_memory.md R48). -/
def step (s : State) : Host.Outcome State Fault Refusal := stepOnce s

/-- The state with one more input, taken by the very next step: the stimulus word with these bits (log 1, 15). -/
def State.withFetchWord (s : State) (_nbits w : Nat) : State :=
  { s with script := inputOfNat w :: s.script }

end Sys2Proof.Machine
end

