-- ==== Sys2Proof/Machine/Script.lean ====
section
/-! DEFINITION. The script notation of spec/30_encoding.md R71: the primitive steps and the pseudo-operations, each with its
expansion into inputs. -/

namespace Sys2Proof.Machine

/-- The primitive steps and pseudo-operations (R71). `s e d` is `S`, `S!`, `S:hhhh` or `S!:hhhh`; `cmd c` is the HOST
command with that opcode and `E = 0`. -/
inductive ScriptOp where
  | l0
  | l1
  | s (e : Bool) (d : Sample)
  | cmd (c : BitVec 3)
  | disarmErr
  | reset
  | edge
  | run
  | runSample (d : Sample)
  | runSmpFail
  | event (d : Sample)
  | eventSmpFail
  | init
  | onEdgeEvent (e0 e1 e2 e3 : Bool) (d : Sample)
deriving DecidableEq, Repr

/-- How many SEQ steps `RUN` can need: the five that may be left of a callback in progress and the six of one more, for an
edge that is pending; no SEQ step latches an edge (R14, R102). DEDUCED, log 17. -/
def runFuel : Nat := 11

/-- The inputs of `RUN`: `S` repeated while SEQ is enabled, the step taken with `PHASE == SMP` carrying the draws `e` and
`d` (R71). -/
def runInputs (e : Bool) (d : Sample) : Nat → State → List Input
  | 0, _ => []
  | n + 1, s =>
    if s.seqEnabled then
      let st : Stim := if s.phase = .smp then .seq e d else .seq false 0
      .word st.toWord ::
        match execStim st s with
        | .next t => runInputs e d n t
        | .fault _ => []
        | .refused _ => []
    else []

/-- One listed input after another. -/
def runListed : List Input → State → Outcome
  | [], s => .next s
  | inp :: rest, s =>
    match execInput inp s with
    | .next t => runListed rest t
    | .fault f => .fault f
    | .refused r => .refused r

/-- `EDGE`: `L1 ; L0`. -/
def edgeInputs : List Input := [.word (Stim.line true).toWord, .word (Stim.line false).toWord]

/-- `EVENT`: `EDGE`, then `RUN` in the state that follows it. -/
def eventInputs (e : Bool) (d : Sample) (s : State) : List Input :=
  edgeInputs ++
    match runListed edgeInputs s with
    | .next t => runInputs e d runFuel t
    | .fault _ => []
    | .refused _ => []

/-- The SEQ steps of one whole callback with its draws, `dis_err` for `DISPATCH`, `ind_err` for `HI` and for `LO`, `smp_err`
and `smp_data` for `SMP`: from a `DISPATCH` up to the step that returns `PHASE` to IDLE, none where no `DISPATCH` is enabled
(R71, R98). -/
def callbackInputs (e0 e1 e2 e3 : Bool) (d : Sample) (s : State) : List Input :=
  if s.phase = .idle then
    if s.seqEnabled then
      if s.atLimit then [.word (Stim.seq e0 0).toWord]
      else [.word (Stim.seq e0 0).toWord, .word (Stim.seq e1 0).toWord, .word (Stim.seq false 0).toWord,
        .word (Stim.seq e2 0).toWord, .word (Stim.seq e3 d).toWord, .word (Stim.seq false 0).toWord]
    else []
  else []

/-- The expansion of a step or pseudo-operation in a state (R71). -/
def ScriptOp.inputs (op : ScriptOp) (s : State) : List Input :=
  match op with
  | .l0 => [.word (Stim.line false).toWord]
  | .l1 => [.word (Stim.line true).toWord]
  | .s e d => [.word (Stim.seq e d).toWord]
  | .cmd c => [.word (Stim.host false c).toWord]
  | .disarmErr => [.word (Stim.host true 0b010#3).toWord]
  | .reset => [.rst]
  | .edge => edgeInputs
  | .run => runInputs false 0 runFuel s
  | .runSample d => runInputs false d runFuel s
  | .runSmpFail => runInputs true 0 runFuel s
  | .event d => eventInputs false d s
  | .eventSmpFail => eventInputs true 0 s
  | .init => [.rst, .word (Stim.host false 0b001#3).toWord]
  | .onEdgeEvent e0 e1 e2 e3 d => callbackInputs e0 e1 e2 e3 d s

/-- A script: each operation expanded in the state it is reached in, and run. -/
def runScript : List ScriptOp → State → Outcome
  | [], s => .next s
  | op :: rest, s =>
    match runListed (op.inputs s) s with
    | .next t => runScript rest t
    | .fault f => .fault f
    | .refused r => .refused r

end Sys2Proof.Machine
end

