-- ==== Sys2Proof/Machine/Ports.lean ====
section
/-! DEFINITION. The output ports (spec/10_state.md R26): the levels that are functions of the state, and what a step shows
on the ports that are active during one step only. Ports are views; no register holds them. -/

namespace Sys2Proof.Machine

/-- The output ports. `rpt_valid` is `rpt.isSome`, with `rpt_index`, `rpt_fail`, `rpt_value` the tuple; what those carry when
no report is made, and what `rsp_data` and `rsp_err` carry when no command is answered, the spec does not state, and here
there is no value. DESIGN CHOICE, log 12. -/
structure OutPorts where
  ind : Bool
  armed : Bool
  fault : Bool
  busy : Bool
  smpReq : Bool
  rpt : Option Report
  rsp : Option (Word × Bool)
deriving DecidableEq, Repr

/-- The report among the actions of a step. -/
def reportOf : List Action → Option Report
  | [] => none
  | .rpt t :: _ => some t
  | _ :: rest => reportOf rest

/-- The response among the actions of a step. -/
def responseOf : List Action → Option (Word × Bool)
  | [] => none
  | .rsp data err :: _ => some (data, err)
  | _ :: rest => responseOf rest

/-- The output ports at the end of a step that emitted the actions `acts` and left the state `s`. -/
def OutPorts.after (acts : List Action) (s : State) : OutPorts where
  ind := s.ind
  armed := s.armedOut
  fault := s.faultOut
  busy := s.busyOut
  smpReq := acts.contains .smpreq
  rpt := reportOf acts
  rsp := responseOf acts

/-- The actions a step from `s` to `t` emitted. -/
def emitted (s t : State) : List Action := t.trace.drop s.trace.length

/-- While `rst == 1` every output is at its reset level (spec/70_reset_and_hazards.md R160). -/
def OutPorts.inReset : OutPorts := ⟨false, false, false, false, false, none, some (0, false)⟩

end Sys2Proof.Machine
end

