-- ==== Sys2Proof/Safety.lean ====
section
/-! DEFINITION. What counts as a safe run: the invariants V1 to V10 of spec/10_state.md R23 (V7 relates two states and is a
statement of its own), the premise on the host of spec/70_reset_and_hazards.md R162, the quiescent and terminal states of
R163, and what a step must end in. -/

namespace Sys2Proof.Machine

/-! ### The trace (V3, V10) -/

/-- Where a trace stands in the block `IND(1), IND(0), SMPREQ, RPT(..)` of an accepted event. -/
inductive BlockPos where
  | start
  | pulseHigh
  | pulseLow
  | sampled
deriving DecidableEq, Repr

/-- One action read by the recogniser of V3: the position in the block and the number of reports so far, or `none` once the
trace is no sequence of blocks. The k-th report must carry `index == k` (V10). -/
def scanAction (p : Option (BlockPos × Nat)) (a : Action) : Option (BlockPos × Nat) :=
  match p, a with
  | none, _ => none
  | some (.start, n), .ind true => some (.pulseHigh, n)
  | some (.pulseHigh, n), .ind false => some (.pulseLow, n)
  | some (.pulseLow, n), .smpreq => some (.sampled, n)
  | some (.sampled, n), .rpt t => if t.index.toNat = n + 1 then some (.start, n + 1) else none
  | some q, .rsp _ _ => some q
  | some q, .disarmed => some q
  | some q, .fault => some q
  | some _, .ind _ => none
  | some _, .smpreq => none
  | some _, .rpt _ => none

/-- The recogniser of V3 over a whole trace. -/
def scanTrace (tr : List Action) : Option (BlockPos × Nat) := tr.foldl scanAction (some (.start, 0))

/-- Where the trace stands in its block when the sequencer is at a phase. -/
def Phase.blockPos : Phase → BlockPos
  | .idle => .start
  | .hi => .start
  | .inc => .pulseHigh
  | .lo => .pulseHigh
  | .smp => .pulseLow
  | .rpt => .sampled

/-- By how much `COUNT` is ahead of the number of reports at a phase (V10). -/
def Phase.unreported : Phase → Nat
  | .idle => 0
  | .hi => 0
  | .inc => 0
  | .lo => 1
  | .smp => 1
  | .rpt => 1

/-- The actions `DISARMED` and `FAULT`. -/
def Action.endsSampling : Action → Bool
  | .disarmed => true
  | .fault => true
  | .ind _ => false
  | .smpreq => false
  | .rpt _ => false
  | .rsp _ _ => false

/-- The trigger has been disarmed for good: `LIFE` is DISARMED or FAULTED. -/
def Life.over : Life → Bool
  | .unarmed => false
  | .armed => false
  | .disarmed => true
  | .faulted => true

/-! ### The invariants of R23 -/

/-- V1 -/
abbrev InvCountAtMostLimit (s : State) : Prop := s.count ≤ s.limit

/-- V2 -/
abbrev InvPendOnlyArmed (s : State) : Prop :=
  s.life ≠ .armed → s.pend = false ∧ (s.phase = .idle → s.seqEnabled = false)

/-- V3, first part, and V10 -/
abbrev InvTraceIsBlocks (s : State) : Prop :=
  (scanTrace s.trace).map Prod.fst = some s.phase.blockPos ∧
    (scanTrace s.trace).map (fun p => p.2 + s.phase.unreported) = some s.count.toNat

/-- V3, second part: at most one action from `DISARMED`, `FAULT`, and one exactly when the trigger is over. -/
abbrev InvOneEndAction (s : State) : Prop :=
  (s.trace.filter Action.endsSampling).length = if s.life.over then 1 else 0

/-- V4 -/
abbrev InvIndInsidePulse (s : State) : Prop := s.ind = true ↔ (s.phase = .inc ∨ s.phase = .lo)

/-- V5 -/
abbrev InvIdleIsClean (s : State) : Prop :=
  s.phase = .idle → s.ind = false ∧ s.sval = 0 ∧ s.sfail = false ∧ s.ifail = false

/-- V6 -/
abbrev InvUnarmedIsFresh (s : State) : Prop :=
  s.life = .unarmed → s.count = 0 ∧ s.pend = false ∧ s.phase = .idle

/-- V8 -/
abbrev InvPhaseCode (s : State) : Prop := s.phase.code ≤ 5#3

/-- V9 -/
abbrev InvAcceptedBelowLimit (s : State) : Prop := (s.phase = .hi ∨ s.phase = .inc) → s.count < s.limit

/-- R66: `value` is 0 when `fail[0] == 1`. -/
abbrev InvFailedReadIsZero (s : State) : Prop := s.sfail = true → s.sval = 0

/-- The invariant of the machine: legal parameters (R5) and V1 to V6, V8 to V10 (R23), with R66's rule on the value of a
failed read. -/
abbrev Inv (s : State) : Prop :=
  s.cfg.wf = true ∧ InvCountAtMostLimit s ∧ InvPendOnlyArmed s ∧ InvTraceIsBlocks s ∧ InvOneEndAction s ∧
    InvIndInsidePulse s ∧ InvIdleIsClean s ∧ InvUnarmedIsFresh s ∧ InvPhaseCode s ∧ InvAcceptedBelowLimit s ∧
    InvFailedReadIsZero s

/-! ### The premise on the host (R162) -/

/-- THE NAMED PREMISE "the initialization contract was performed" (R162; spec/93_implementation_defined.md U13): the host
completed items 1 to 3 after reset and before its `ARM`, and then armed. The rules define what the block does without it
too, so the model's other statements are about every state, those that meet the premise among them. Log 13. -/
abbrev InitContractPerformed (s : State) : Prop := s.setup = Setup.complete ∧ s.life ≠ .unarmed

/-- A claim with the named premise (R162): in every state in which the initialization contract was performed. -/
def UnderInitContract (claim : State → Prop) : Prop := ∀ s, InitContractPerformed s → claim s

/-! ### Ends of a run (R163) -/

/-- Quiescent: no SEQ step is enabled. -/
def State.quiescent (s : State) : Bool := !s.seqEnabled

/-- Terminal: quiescent, and `LIFE` is DISARMED or FAULTED. -/
def State.terminal (s : State) : Bool := s.quiescent && s.life.over

/-- The run has ended normally. -/
def State.endedNormally (s : State) : Bool := s.quiescent && decide (s.life = .disarmed)

/-- The run has ended in fault. -/
def State.endedInFault (s : State) : Bool := s.quiescent && decide (s.life = .faulted)

/-! ### What a step must end in -/

/-- Every listed word names a step (R60). -/
def scriptValid (inputs : List Input) : Bool := (firstInvalid 0 inputs).isNone

/-- The outcome is a next state. -/
def Completes (o : Outcome) : Prop := ∃ t : State, o = .next t

/-- The action is a response to the host. -/
def Action.isResponse : Action → Bool
  | .rsp _ _ => true
  | .ind _ => false
  | .smpreq => false
  | .rpt _ => false
  | .disarmed => false
  | .fault => false

/-- The action is one of a callback's: `IND`, `SMPREQ` or `RPT` (R23, V3). -/
def Action.ofCallback : Action → Bool
  | .ind _ => true
  | .smpreq => true
  | .rpt _ => true
  | .rsp _ _ => false
  | .disarmed => false
  | .fault => false

/-! ### Schedules (spec/70_reset_and_hazards.md R172) -/

/-- The step is one of agent SEQ. -/
def Stim.isSeq : Stim → Bool
  | .seq _ _ => true
  | .line _ => false
  | .host _ _ => false

/-- The step is the host's `DISARM`. -/
def Stim.isDisarm : Stim → Bool
  | .host _ cmd => decide (cmd = 0b010#3)
  | .line _ => false
  | .seq _ _ => false

/-- How many steps of agent SEQ a schedule holds. -/
def seqSteps (stims : List Stim) : Nat := (stims.filter Stim.isSeq).length

/-- Whether the sampled levels, after the level `prev`, hold a falling edge (R15). -/
def hasFall (prev : Bool) : List Bool → Bool
  | [] => false
  | v :: rest => (prev && !v) || hasFall v rest

/-- The last sampled level, `prev` where there is none. -/
def lastLevel (prev : Bool) : List Bool → Bool
  | [] => prev
  | v :: rest => lastLevel v rest

/-- The state after a step of an agent. A step in its own state always completes; the other two cases do not arise. -/
def afterStim (st : Stim) (s : State) : State :=
  match execStim st s with
  | .next t => t
  | .fault _ => s
  | .refused _ => s

/-- The state after the first `n` steps of an unending run. -/
def stateAt (schedule : Nat → Stim) (s : State) : Nat → State
  | 0 => s
  | n + 1 => afterStim (schedule n) (stateAt schedule s n)

/-- The one liveness assumption: SEQ is weakly fair. If a SEQ step is enabled, a SEQ step is eventually taken (R172). The step
function does not build it in (log 3); a claim that needs it takes it as a premise. -/
def WeaklyFair (schedule : Nat → Stim) (s : State) : Prop :=
  ∀ n, (stateAt schedule s n).seqEnabled = true → ∃ m, n ≤ m ∧ (schedule m).isSeq = true

end Sys2Proof.Machine
end

