-- ==== Sys2Proof/Certificates/Slice0/Obligations.lean ====
section
/-! DEFINITION. The statements for the provers, from the numbered rules of spec/. Each docstring names the rule. A statement that
gives a next state as `{ s with … }` also says what is left: every field not written there, `COUNT`, `LIFE`, `PEND`,
`EDGE_PREV`, `PHASE`, `IND`, the transients, the parameters and the trace among them, is unchanged. -/

open Sys2Proof Sys2Proof.Machine

/-! ### Encoding -/

/-- R60, R61, R63, R64: the words of the spec's encoding tables, written out, decode to the operations they stand for, and
three invalid words to their reasons. -/
def Obligations.WrittenOutWordsDecode : Prop :=
  decode 0b01000000000000000000#20 ⟨.armed, false, true, .idle⟩ = .ok .lineFall ∧
  decode 0b01000000000000000001#20 ⟨.armed, false, false, .idle⟩ = .ok .lineRise ∧
  decode 0b00010000000000000000#20 ⟨.armed, true, false, .idle⟩ = .ok (.dispatch true) ∧
  decode 0b00001000000000000000#20 ⟨.armed, false, false, .smp⟩ = .ok (.smp false 0x8000#16) ∧
  decode 0b10000000000000000001#20 ⟨.unarmed, false, false, .idle⟩ = .ok .arm ∧
  decode 0b10010000000000000010#20 ⟨.armed, false, false, .lo⟩ = .ok (.disarm true) ∧
  decode 0b10000000000000000100#20 ⟨.armed, false, false, .lo⟩ = .ok .rdstatus ∧
  decode 0b11000000000000000000#20 resetCtx = .error .reservedAgent ∧
  decode 0b00100000000000000000#20 resetCtx = .error .bit17Set ∧
  decode 0b10000000000000001000#20 resetCtx = .error .hostMustBeZero

/-- R61, R63, R64: decoding the word of an operation, in any state where the operation is the one its word selects, gives the
operation back with every operand. -/
def Obligations.EncodedOperationDecodesToItself : Prop :=
  ∀ (i : Instr) (c : Ctx), i.wellFormedIn c = true → decode (encode i) c = .ok i

/-- R60: which words name no step. -/
def Obligations.InvalidWordsAreExactlyThese : Prop :=
  ∀ w : StimWord,
    (∃ why, Stim.ofWord w = .error why) ↔
      (w.extractLsb' 18 2 = 3#2 ∨ w.getLsbD 17 = true ∨
        (w.extractLsb' 18 2 = 1#2 ∧ w.extractLsb' 1 15 ≠ 0#15) ∨
        (w.extractLsb' 18 2 = 2#2 ∧ w.extractLsb' 3 13 ≠ 0#13))

/-- R72: the 4 LINE, 7 SEQ and 8 HOST rows of the table; in every state every valid word selects exactly one of them, the one
the decoder reads, and an invalid word selects none. -/
def Obligations.ValidWordSelectsExactlyOneRow : Prop :=
  lineRows.map Row.mnemonic = ["LINE.FALL", "LINE.RISE", "LINE.HOLD0", "LINE.HOLD1"] ∧
  seqRows.map Row.mnemonic = ["SEQ.NONE", "DISPATCH", "HI", "INC", "LO", "SMP", "RPT"] ∧
  hostRows.map Row.mnemonic = ["NOP", "ARM", "DISARM", "RSV3", "RDSTATUS", "RDCOUNT", "RDLIMIT", "RSV7"] ∧
  ∀ (w : StimWord) (c : Ctx),
    (∀ i, decode w c = .ok i →
      (opcodeRows.filter (fun r => r.selects w c)).map Row.mnemonic = [i.mnemonic] ∧ i.wellFormedIn c = true) ∧
    (∀ why, decode w c = .error why → opcodeRows.filter (fun r => r.selects w c) = [])

/-- R60, R69: bits that a step does not read do not affect it: `E` in LINE steps and in every HOST command but `DISARM`; `D` in
every SEQ step but `SMP`; `E` in `INC`, `RPT`, `SEQ.NONE` and an accepting `DISPATCH`; `D` in an `SMP` whose read failed. -/
def Obligations.IgnoredBitsDoNotAffectTheStep : Prop :=
  ∀ (s : State) (e e' v : Bool) (d d' : Sample) (cmd : BitVec 3),
    decode (stimWord 1#2 e (0#15 ++ BitVec.ofBool v)) s.ctx = decode (stimWord 1#2 e' (0#15 ++ BitVec.ofBool v)) s.ctx ∧
    (cmd ≠ 0b010#3 → execStim (.host e cmd) s = execStim (.host e' cmd) s) ∧
    (s.life ≠ .armed → execStim (.host e 0b010#3) s = execStim (.host e' 0b010#3) s) ∧
    (s.phase ≠ .smp → execStim (.seq e d) s = execStim (.seq e d') s) ∧
    (s.phase = .smp → execStim (.seq true d) s = execStim (.seq true d') s) ∧
    ((s.phase = .inc ∨ s.phase = .rpt ∨ s.seqEnabled = false ∨ (s.phase = .idle ∧ s.count < s.limit)) →
      execStim (.seq e d) s = execStim (.seq e' d) s)

/-! ### LINE operations -/

/-- R80: a LINE step, whatever its `E` bit, completes in every state at every level; `EDGE_PREV` follows the level always,
`PEND` is set by a falling edge while `LIFE == ARMED` and never cleared, and nothing else is written or emitted. -/
def Obligations.LineStepFollowsTheLevel : Prop :=
  ∀ (s : State) (e v : Bool),
    decode (stimWord 1#2 e (0#15 ++ BitVec.ofBool v)) s.ctx = .ok (select (.line v) s.ctx) ∧
    execStim (.line v) s =
      .next { s with edgePrev := v,
                     pend := if s.edgePrev = true ∧ v = false ∧ s.life = .armed then true else s.pend }

/-- R81: `LINE.FALL`. While ARMED the edge is latched, whatever `PEND`, `PHASE` and `COUNT` are, and `DISPATCH` is enabled where
`PHASE` is IDLE; otherwise nothing but `EDGE_PREV` changes. -/
def Obligations.FallingEdgeIsLatchedWhileArmed : Prop :=
  ∀ s : State, s.edgePrev = true →
    decode 0x40000#20 s.ctx = .ok .lineFall ∧
    (s.life = .armed → exec .lineFall s = .next { s with edgePrev := false, pend := true } ∧
      ({ s with edgePrev := false, pend := true, phase := .idle } : State).seqEnabled = true) ∧
    (s.life ≠ .armed → exec .lineFall s = .next { s with edgePrev := false })

/-- R82: `LINE.RISE` writes `EDGE_PREV` and nothing else, in any state. -/
def Obligations.RisingEdgeWritesOnlyEdgePrev : Prop :=
  ∀ s : State, s.edgePrev = false →
    decode 0x40001#20 s.ctx = .ok .lineRise ∧ exec .lineRise s = .next { s with edgePrev := true } ∧
    decode 0x40000#20 ({ s with edgePrev := true } : State).ctx = .ok .lineFall

/-- R83: `LINE.HOLD0` and `LINE.HOLD1` change nothing and emit nothing. -/
def Obligations.LineHoldChangesNothing : Prop :=
  ∀ s : State,
    (s.edgePrev = false → decode 0x40000#20 s.ctx = .ok .lineHold0 ∧ exec .lineHold0 s = .next s) ∧
    (s.edgePrev = true → decode 0x40001#20 s.ctx = .ok .lineHold1 ∧ exec .lineHold1 s = .next s)

/-- R81, R165: any number of LINE steps with no step of another agent between them latch at most one edge: `PEND` ends set
exactly when it was set or a falling edge was sampled while ARMED, and nothing but `EDGE_PREV` and `PEND` changes. -/
def Obligations.FallingEdgesMergeIntoOnePending : Prop :=
  ∀ (levels : List Bool) (s : State),
    runStims (levels.map Stim.line) s =
      .next { s with edgePrev := lastLevel s.edgePrev levels,
                     pend := s.pend || (decide (s.life = .armed) && hasFall s.edgePrev levels) }

/-! ### SEQ operations -/

/-- R64: the micro-op of a SEQ word is selected by `PHASE`, and in IDLE by `PEND` and `LIFE`; the word carries only the draws. -/
def Obligations.SeqWordSelectsTheMicroOpOfPhase : Prop :=
  ∀ (c : Ctx) (e : Bool) (d : Sample),
    decode (stimWord 0#2 e d) c = .ok (match c.phase with
      | .idle => if c.pend = true ∧ c.life = .armed then .dispatch e else .seqNone
      | .hi => .hi e
      | .inc => .inc
      | .lo => .lo e
      | .smp => .smp e d
      | .rpt => .rpt)

/-- R90: when a SEQ step exists; where none does, a SEQ stimulus changes nothing and emits nothing; and a `DISPATCH` is
selected only when the sequencer is idle and the trigger armed. -/
def Obligations.SeqStimulusIsANoOpWhenNotEnabled : Prop :=
  ∀ (s : State) (e : Bool) (d : Sample),
    (s.seqEnabled = true ↔ (s.phase ≠ .idle ∨ (s.phase = .idle ∧ s.pend = true ∧ s.life = .armed))) ∧
    (s.seqEnabled = false →
      decode (stimWord 0#2 e d) s.ctx = .ok .seqNone ∧ exec .seqNone s = .next s) ∧
    (decode (stimWord 0#2 e d) s.ctx = .ok (.dispatch e) → s.phase = .idle ∧ s.pend = true ∧ s.life = .armed)

/-- R91, R138: `DISPATCH` clears `PEND`; with `COUNT < LIMIT` the event is accepted (`PHASE` becomes HI, `e` is not read, no
action); with `COUNT >= LIMIT` the block disarms and `PHASE` stays IDLE, with no pulse, no sample and no report. -/
def Obligations.DispatchChecksTheLimit : Prop :=
  ∀ (s : State) (e : Bool), s.phase = .idle → s.pend = true → s.life = .armed →
    decode (if e then 0x10000#20 else 0x00000#20) s.ctx = .ok (.dispatch e) ∧
    (s.count < s.limit → exec (.dispatch e) s = .next { s with pend := false, phase := .hi }) ∧
    (s.limit ≤ s.count → exec (.dispatch e) s =
      .next { s with pend := false, life := if e then .faulted else .disarmed,
                     trace := s.trace ++ [if e then .fault else .disarmed] })

/-- R92: the disarm primitive acts only when ARMED: `PEND` is cleared and `LIFE` becomes DISARMED or, on a failure, FAULTED, with
the action `DISARMED` or `FAULT`; otherwise nothing is written or emitted, so it is idempotent. -/
def Obligations.DisarmPrimitiveActsOnce : Prop :=
  ∀ (s : State) (e e' : Bool),
    (s.life = .armed → s.disarm e =
      { s with pend := false, life := if e then .faulted else .disarmed,
               trace := s.trace ++ [if e then .fault else .disarmed] }) ∧
    (s.life ≠ .armed → s.disarm e = s) ∧
    (s.disarm e).disarm e' = s.disarm e

/-- R93, R46: `HI` drives the indicator high whatever the answer, records a failed write in `IFAIL`, and goes on to INC. -/
def Obligations.HiStartsThePulse : Prop :=
  ∀ (s : State) (e : Bool), s.phase = .hi →
    decode (if e then 0x10000#20 else 0x00000#20) s.ctx = .ok (.hi e) ∧
    exec (.hi e) s =
      .next { s with ind := true, ifail := if e then true else s.ifail, phase := .inc, trace := s.trace ++ [.ind true] }

/-- R94, R100: `INC` completes whatever the failure flags and the transients are, and writes `COUNT` and `PHASE` only; `COUNT`
becomes `COUNT + 1` wherever that fits in `W` bits. -/
def Obligations.IncAddsOneToCount : Prop :=
  ∀ s : State, s.phase = .inc →
    decode 0x00000#20 s.ctx = .ok .inc ∧
    ∃ c : Word, exec .inc s = .next { s with count := c, phase := .lo } ∧
      (s.cfg.wf = true → s.count.toNat + 1 < 2 ^ s.cfg.width → c = s.count + 1 ∧ c.toNat = s.count.toNat + 1)

/-- R95, R46: `LO` drives the indicator low whatever the answer; `IFAIL` is set by a failed write and kept otherwise. -/
def Obligations.LoEndsThePulse : Prop :=
  ∀ (s : State) (e : Bool), s.phase = .lo →
    decode (if e then 0x10000#20 else 0x00000#20) s.ctx = .ok (.lo e) ∧
    exec (.lo e) s =
      .next { s with ind := false, ifail := if e then true else s.ifail, phase := .smp, trace := s.trace ++ [.ind false] }

/-- R96, R131: `SMP` takes the reading, or on a failure ignores `d`, clears `SVAL` and sets `SFAIL`; one request is emitted and
the sequence goes on to RPT. -/
def Obligations.SmpTakesOneReading : Prop :=
  ∀ (s : State) (e : Bool) (d : Sample), s.phase = .smp →
    decode ((if e then 0x10000#20 else 0x00000#20) ||| d.setWidth 20) s.ctx = .ok (.smp e d) ∧
    exec (.smp e d) s =
      .next { s with sval := if e then 0 else d, sfail := e, phase := .rpt, trace := s.trace ++ [.smpreq] }

/-- R97, R139: `RPT` reports `(COUNT, (IFAIL, SFAIL), SVAL)` with the values before the step, clears the transients and returns
to IDLE; a pending edge of an armed trigger is enabled at once. -/
def Obligations.RptReportsAndReturns : Prop :=
  ∀ s : State, s.phase = .rpt →
    decode 0x00000#20 s.ctx = .ok .rpt ∧
    ∃ t : State, exec .rpt s = .next t ∧
      t = { s with sval := 0, sfail := false, ifail := false, phase := .idle,
                   trace := s.trace ++ [.rpt ⟨s.count, BitVec.ofBool s.ifail ++ BitVec.ofBool s.sfail, s.sval⟩] } ∧
      (s.pend = true → s.life = .armed → t.seqEnabled = true)

/-! ### The callback as a whole -/

/-- R98, third row, and R134: an accepted event played with no other step in between counts once, pulses once, samples once
and reports once, whatever the failures; the bits its steps do not read may be anything. -/
def Obligations.AcceptedEventPlaysTheWholeCallback : Prop :=
  ∀ (s : State) (e0 e1 e2 e3 x2 x5 : Bool) (d d0 d1 d2 d3 d5 : Sample),
    s.cfg.wf = true → s.phase = .idle → s.pend = true → s.life = .armed → s.count < s.limit →
    s.ind = false → s.sval = 0 → s.sfail = false → s.ifail = false →
    runStims [.seq e0 d0, .seq e1 d1, .seq x2 d2, .seq e2 d3, .seq e3 d, .seq x5 d5] s =
      .next { s with
        pend := false,
        count := s.count + 1,
        trace := s.trace ++ [.ind true, .ind false, .smpreq,
          .rpt ⟨s.count + 1, BitVec.ofBool (e1 || e2) ++ BitVec.ofBool e3, if e3 then 0 else d⟩] }

/-- R98, first and second row, R164: at the limit the callback is its `DISPATCH` alone, which disarms; further SEQ stimuli do
nothing. -/
def Obligations.DisarmingEventIsDispatchAlone : Prop :=
  ∀ (s : State) (e : Bool) (d : Sample) (more : List (Bool × Sample)),
    s.phase = .idle → s.pend = true → s.life = .armed → s.limit ≤ s.count →
    runStims (.seq e d :: more.map (fun p => Stim.seq p.1 p.2)) s =
      .next { s with pend := false, life := if e then .faulted else .disarmed,
                     trace := s.trace ++ [if e then .fault else .disarmed] }

/-- R98: a step of LINE, an `ARM` or a `DISARM` commutes with each of the micro-ops `HI` to `RPT`: the registers reached are the
same in either order. -/
def Obligations.CallbackCommutesWithLineAndArming : Prop :=
  ∀ (s : State) (e e' v : Bool) (d : Sample) (other : Stim), s.phase ≠ .idle →
    (other = .line v ∨ other = .host e' 0b001#3 ∨ other = .host e' 0b010#3) →
    ∃ t u : State, runStims [.seq e d, other] s = .next t ∧ runStims [other, .seq e d] s = .next u ∧
      ({ t with trace := [] } : State) = { u with trace := [] }

/-- R102: the complete list of the transitions of `PHASE`, reset among them. -/
def Obligations.PhaseMovesOnlyAsListed : Prop :=
  (∀ s : State, ∃ t : State, execMove .rst s = .next t ∧ t.phase = .idle) ∧
  ∀ (i : Instr) (s t : State), exec i s = .next t →
    match i with
    | .dispatch _ => s.phase = .idle ∧ t.phase = if s.count < s.limit then .hi else .idle
    | .hi _ => s.phase = .hi ∧ t.phase = .inc
    | .inc => s.phase = .inc ∧ t.phase = .lo
    | .lo _ => s.phase = .lo ∧ t.phase = .smp
    | .smp _ _ => s.phase = .smp ∧ t.phase = .rpt
    | .rpt => s.phase = .rpt ∧ t.phase = .idle
    | .lineFall | .lineRise | .lineHold0 | .lineHold1 | .seqNone | .nop | .arm | .disarm _ | .rsv3 | .rdstatus
    | .rdcount | .rdlimit | .rsv7 => t.phase = s.phase

/-- R101: a run from `INIT` in which the host issues no `DISARM`, with `N` edge events delivered and each callback run to
completion: `COUNT`, the pulses, the sample requests and the reports are each `min(N, LIMIT)`; the trigger is armed exactly
while `N <= LIMIT`; `N` never exceeds `LIMIT + 1`. Whatever the host has done of the initialization contract (log 13). -/
def Obligations.CountEqualsMinOfEventsAndLimit : Prop :=
  ∀ (c : Config) (u : Setup) (stims : List Stim), c.wf = true → (∀ st ∈ stims, st.isDisarm = false) →
    ∃ s t : State, runStims [.host false 0b001#3] { State.resetWith c with setup := u } = .next s ∧ runStims stims s = .next t ∧
      dispatches stims s ≤ c.eventLimit.toNat + 1 ∧
      (t.life = .armed ↔ dispatches stims s ≤ c.eventLimit.toNat) ∧
      (c.eventLimit.toNat < dispatches stims s → t.life = .disarmed ∨ t.life = .faulted) ∧
      (t.phase = .idle →
        t.count.toNat = min (dispatches stims s) c.eventLimit.toNat ∧
        t.trace.count (.ind true) = min (dispatches stims s) c.eventLimit.toNat ∧
        t.trace.count (.ind false) = min (dispatches stims s) c.eventLimit.toNat ∧
        t.trace.count .smpreq = min (dispatches stims s) c.eventLimit.toNat ∧
        (t.trace.filter (fun a => (reportOf [a]).isSome)).length = min (dispatches stims s) c.eventLimit.toNat)

/-! ### HOST operations -/

/-- R111: `NOP`. -/
def Obligations.NopOnlyResponds : Prop :=
  ∀ s : State, decode 0x80000#20 s.ctx = .ok .nop ∧
    exec .nop s = .next { s with trace := s.trace ++ [.rsp 0 false] }

/-- R112: `ARM` moves UNARMED to ARMED, does nothing in any other state of the trigger, and answers `RSP(0, 0)`. -/
def Obligations.ArmOnlyFromUnarmed : Prop :=
  ∀ s : State, decode 0x80001#20 s.ctx = .ok .arm ∧
    (s.life = .unarmed → exec .arm s = .next { s with life := .armed, trace := s.trace ++ [.rsp 0 false] }) ∧
    (s.life ≠ .unarmed → exec .arm s = .next { s with trace := s.trace ++ [.rsp 0 false] })

/-- R113, R133: `DISARM` disarms when ARMED, even mid-callback, with the action before the response; in every other state of the
trigger it only responds; the response is `RSP(0, 0)` in every case. -/
def Obligations.DisarmCommand : Prop :=
  ∀ (s : State) (e : Bool),
    decode (if e then 0x90002#20 else 0x80002#20) s.ctx = .ok (.disarm e) ∧
    (s.life = .armed → exec (.disarm e) s =
      .next { s with pend := false, life := if e then .faulted else .disarmed,
                     trace := s.trace ++ [if e then .fault else .disarmed, .rsp 0 false] }) ∧
    (s.life ≠ .armed → exec (.disarm e) s = .next { s with trace := s.trace ++ [.rsp 0 false] })

/-- R114: `RDSTATUS` answers `LIFE | PEND << 2 | IND << 3 | BUSY << 4 | PHASE << 5 | EDGE_PREV << 8 | ATLIM << 9` of the state it
is read in, and changes no register. -/
def Obligations.RdstatusReadsTheFields : Prop :=
  ∀ s : State, decode 0x80004#20 s.ctx = .ok .rdstatus ∧
    exec .rdstatus s = .next { s with trace := s.trace ++ [.rsp
      (s.life.code.setWidth 32 ||| (BitVec.ofBool s.pend).setWidth 32 <<< 2 ||| (BitVec.ofBool s.ind).setWidth 32 <<< 3
        ||| (BitVec.ofBool (decide (s.phase ≠ .idle))).setWidth 32 <<< 4 ||| s.phase.code.setWidth 32 <<< 5
        ||| (BitVec.ofBool s.edgePrev).setWidth 32 <<< 8
        ||| (BitVec.ofBool (decide (s.limit ≤ s.count))).setWidth 32 <<< 9) false] }

/-- R115, R68: `RDCOUNT` answers `zext_32(COUNT)`, the whole `W`-bit register, and changes no register. -/
def Obligations.RdcountReadsCount : Prop :=
  ∀ s : State, decode 0x80005#20 s.ctx = .ok .rdcount ∧
    ∃ data : Word, exec .rdcount s = .next { s with trace := s.trace ++ [.rsp data false] } ∧
      (s.cfg.wf = true → data.toNat = s.count.toNat % 2 ^ s.cfg.width) ∧
      (s.cfg.wf = true → s.count ≤ s.limit → data = s.count)

/-- R116: `RDLIMIT` answers `zext_32(LIMIT)` and changes no register. -/
def Obligations.RdlimitReadsLimit : Prop :=
  ∀ s : State, decode 0x80006#20 s.ctx = .ok .rdlimit ∧
    ∃ data : Word, exec .rdlimit s = .next { s with trace := s.trace ++ [.rsp data false] } ∧
      (s.cfg.wf = true → data = s.cfg.eventLimit)

/-- R117: the reserved opcodes answer `RSP(0, 1)` and change no register. -/
def Obligations.ReservedOpcodesAnswerAnError : Prop :=
  ∀ s : State, decode 0x80003#20 s.ctx = .ok .rsv3 ∧ decode 0x80007#20 s.ctx = .ok .rsv7 ∧
    exec .rsv3 s = .next { s with trace := s.trace ++ [.rsp 0 true] } ∧
    exec .rsv7 s = .next { s with trace := s.trace ++ [.rsp 0 true] }

/-- R21: the layout of `STATUS`, field by field. -/
def Obligations.StatusLayout : Prop :=
  ∀ s : State,
    s.status.extractLsb' 0 2 = s.life.code ∧ s.status.getLsbD 2 = s.pend ∧ s.status.getLsbD 3 = s.ind ∧
    s.status.getLsbD 4 = decide (s.phase ≠ .idle) ∧ s.status.extractLsb' 5 3 = s.phase.code ∧
    s.status.getLsbD 8 = s.edgePrev ∧ s.status.getLsbD 9 = decide (s.limit ≤ s.count) ∧
    s.status.extractLsb' 10 22 = 0#22

/-- R110, R62: every HOST command completes in every state, emits exactly one response, as its last action, with the table's
`data` and `err`, and writes nothing but `LIFE` and `PEND`, and those only for `ARM` and `DISARM`. That a `COUNT` or `LIMIT`
held in 32 bits is read on its low `W` bits, in every state, is the model's choice (log 6). -/
def Obligations.HostCommandAlwaysResponds : Prop :=
  ∀ (s : State) (e : Bool) (cmd : BitVec 3),
    ∃ (t : State) (before : List Action) (data : Word) (err : Bool),
      execStim (.host e cmd) s = .next t ∧
      t = { s with life := t.life, pend := t.pend, trace := s.trace ++ before ++ [.rsp data err] } ∧
      (∀ a ∈ before, a.endsSampling = true) ∧ before.length ≤ 1 ∧
      (cmd ≠ 0b010#3 → before = [] ∧ t.pend = s.pend) ∧
      (cmd ≠ 0b001#3 → cmd ≠ 0b010#3 → t.life = s.life) ∧
      err = decide (cmd = 0b011#3 ∨ cmd = 0b111#3) ∧
      data = (if cmd = 0b100#3 then s.status
        else if cmd = 0b101#3 then BitVec.ofNat 32 (s.count.toNat % 2 ^ s.cfg.width)
        else if cmd = 0b110#3 then BitVec.ofNat 32 (s.limit.toNat % 2 ^ s.cfg.width)
        else 0)

/-- R18, R19: no host command reads `SVAL`, `SFAIL` or `IFAIL`: two states that differ only in them answer alike and stay
different only in them. -/
def Obligations.HostCannotSeeTheTransients : Prop :=
  ∀ (s : State) (v : Sample) (a b e : Bool) (cmd : BitVec 3),
    ∃ t : State, execStim (.host e cmd) s = .next t ∧
      execStim (.host e cmd) { s with sval := v, sfail := a, ifail := b } =
        .next { t with sval := v, sfail := a, ifail := b }

/-! ### Ownership, the trigger's life, failures -/

/-- R22: who may write what, over every operation; `LIMIT` and `W` are written by nobody, `COUNT` by `INC` only. -/
def Obligations.RegistersAreWrittenOnlyByTheirOwners : Prop :=
  ∀ (i : Instr) (s t : State), exec i s = .next t →
    t.cfg = s.cfg ∧
    (t.count ≠ s.count → i = .inc) ∧
    (t.life ≠ s.life → i = .arm ∨ ∃ e, i = .disarm e ∨ i = .dispatch e) ∧
    (t.pend ≠ s.pend → i = .lineFall ∨ ∃ e, i = .disarm e ∨ i = .dispatch e) ∧
    (t.edgePrev ≠ s.edgePrev → i = .lineFall ∨ i = .lineRise) ∧
    (t.phase ≠ s.phase → i = .inc ∨ i = .rpt ∨ ∃ e d, i = .dispatch e ∨ i = .hi e ∨ i = .lo e ∨ i = .smp e d) ∧
    (t.ind ≠ s.ind → ∃ e, i = .hi e ∨ i = .lo e) ∧
    (t.sval ≠ s.sval ∨ t.sfail ≠ s.sfail → i = .rpt ∨ ∃ e d, i = .smp e d) ∧
    (t.ifail ≠ s.ifail → i = .rpt ∨ ∃ e, i = .hi e ∨ i = .lo e) ∧
    t.setup = s.setup ∧ t.script = s.script ∧ t.tick = s.tick

/-- R13, R147: the only moves of `LIFE`; a trigger that is over stays as it is, and the `fault` output, once 1, stays 1 and is
raised only by a failed disarm. -/
def Obligations.LifeMovesOnlyForward : Prop :=
  ∀ (i : Instr) (s t : State), exec i s = .next t →
    (t.life = s.life ∨ (s.life = .unarmed ∧ t.life = .armed ∧ i = .arm) ∨
      (s.life = .armed ∧ t.life = .disarmed ∧ (i = .disarm false ∨ i = .dispatch false)) ∨
      (s.life = .armed ∧ t.life = .faulted ∧ (i = .disarm true ∨ i = .dispatch true))) ∧
    (s.faultOut = true → t.faultOut = true)

/-- V7 of R23: over any step of a run, `COUNT` never decreases and `LIFE` moves only forward. The premise `Inv` rules out the
states no run reaches, where a `W`-bit `COUNT` at all ones would wrap (log 7, the model's choice). -/
def Obligations.CountNeverDecreases : Prop :=
  ∀ (st : Stim) (s : State), Inv s →
    ∃ t : State, execStim st s = .next t ∧ s.count ≤ t.count ∧ s.life.code ≤ t.life.code ∧
      t.count.toNat ≤ s.count.toNat + 1 ∧ (s.life.over = true → t.life = s.life)

/-- R130, R134: a failure is recorded, in `IFAIL` by `HI` and `LO` and in `SFAIL` by `SMP`, and changes the course of nothing:
whatever the draws, the states reached differ in `SVAL`, `SFAIL` and `IFAIL` alone. -/
def Obligations.FailuresDoNotAlterTheCourse : Prop :=
  ∀ (s : State) (e e' : Bool) (d d' : Sample), s.phase = .hi ∨ s.phase = .lo ∨ s.phase = .smp →
    ∃ t u : State, execStim (.seq e d) s = .next t ∧ execStim (.seq e' d') s = .next u ∧
      u = { t with sval := u.sval, sfail := u.sfail, ifail := u.ifail } ∧ t.phase ≠ s.phase ∧
      (s.phase ≠ .smp → t.ifail = (s.ifail || e) ∧ t.sfail = s.sfail ∧ t.sval = s.sval) ∧
      (s.phase = .smp → t.sfail = e ∧ t.sval = (if e then 0 else d) ∧ t.ifail = s.ifail)

/-- R167, R113: a `DISARM` that falls after an accepting `DISPATCH` disarms at once and the callback still completes, with its
pulse, its count, its sample and its report. -/
def Obligations.DisarmDoesNotCancelACallback : Prop :=
  ∀ (s : State) (e e1 e2 e3 : Bool) (d : Sample),
    s.cfg.wf = true → s.phase = .hi → s.life = .armed → s.count < s.limit → s.sfail = false → s.ifail = false →
    ∃ t : State,
      runStims [.host e 0b010#3, .seq e1 0, .seq false 0, .seq e2 0, .seq e3 d, .seq false 0] s = .next t ∧
      t.life = (if e then .faulted else .disarmed) ∧ t.count = s.count + 1 ∧ t.phase = .idle ∧ t.ind = false ∧
      t.pend = false ∧ t.seqEnabled = false ∧
      t.trace = s.trace ++ [if e then .fault else .disarmed, .rsp 0 false, .ind true, .ind false, .smpreq,
        .rpt ⟨s.count + 1, BitVec.ofBool (e1 || e2) ++ BitVec.ofBool e3, if e3 then 0 else d⟩]

/-- R137 (a): a falling edge and a `DISARM`, or a falling edge and a disarming `DISPATCH`, in either order: the edge is never
delivered. -/
def Obligations.TiedEdgeAndDisarmIsNeverDelivered : Prop :=
  ∀ (s : State) (e e' : Bool) (d : Sample) (stims : List Stim), s.edgePrev = true → s.life = .armed → s.phase = .idle →
    (stims = [.line false, .host e 0b010#3] ∨ stims = [.host e 0b010#3, .line false] ∨
      (s.pend = true ∧ s.limit ≤ s.count ∧
        (stims = [.line false, .seq e' d] ∨ stims = [.seq e' d, .line false]))) →
    ∃ t : State, runStims stims s = .next t ∧ t.pend = false ∧ t.life.over = true ∧ t.seqEnabled = false ∧
      t.count = s.count

/-- R137 (b), (c): a falling edge and an accepting `DISPATCH`: edge first, it is lost; edge second, it is latched. A falling
edge and an `ARM`: `ARM` first, it is latched; edge first, it is not. -/
def Obligations.TieOrderDecidesWhetherAnEdgeIsLatched : Prop :=
  ∀ (s : State) (e : Bool) (d : Sample), s.edgePrev = true → s.phase = .idle →
    (s.life = .armed → s.pend = true → s.count < s.limit →
      ∃ t u : State, runStims [.line false, .seq e d] s = .next t ∧ runStims [.seq e d, .line false] s = .next u ∧
        t.phase = .hi ∧ u.phase = .hi ∧ t.pend = false ∧ u.pend = true) ∧
    (s.life = .unarmed → s.pend = false →
      ∃ t u : State, runStims [.host e 0b001#3, .line false] s = .next t ∧
        runStims [.line false, .host e 0b001#3] s = .next u ∧
        t.life = .armed ∧ u.life = .armed ∧ t.pend = true ∧ u.pend = false)

/-! ### Reset, invariants, the end of a run -/

/-- R5: the machine's reset state is the one of the default `W` and the reference `EVENT_LIMIT`. That the host's reset takes
these two values is the model's choice (log 6). -/
def Obligations.ResetUsesTheDefaultParameters : Prop :=
  State.reset = State.resetWith ⟨32, 1000#32⟩ ∧ State.reset.cfg.wf = true

/-- R27: the state after reset, for all legal parameters: every register at its value, the outputs at their levels,
`STATUS` 0, or only `ATLIM` when `LIMIT` is 0; no SEQ step is enabled. -/
def Obligations.ResetValues : Prop :=
  ∀ c : Config, c.wf = true →
    (State.resetWith c).count = 0 ∧ (State.resetWith c).limit = c.eventLimit ∧ (State.resetWith c).life.code = 0 ∧
    (State.resetWith c).pend = false ∧ (State.resetWith c).edgePrev = false ∧ (State.resetWith c).phase.code = 0 ∧
    (State.resetWith c).ind = false ∧ (State.resetWith c).sval = 0 ∧ (State.resetWith c).sfail = false ∧
    (State.resetWith c).ifail = false ∧ (State.resetWith c).trace = [] ∧
    OutPorts.after [] (State.resetWith c) = ⟨false, false, false, false, false, none, none⟩ ∧
    (State.resetWith c).status = (if c.eventLimit = 0 then 0x00000200#32 else 0#32) ∧
    (State.resetWith c).seqEnabled = false

/-- R160: reset from any state, mid-callback too, gives the reset state of the same parameters; the rest of the listed inputs
and the counter of free moves are the model's own (log 9), and so is the record of the host's contract, which starts anew
(log 13). -/
def Obligations.ResetAbandonsEverything : Prop :=
  ∀ (s : State) (rest : List Input), s.script = .rst :: rest → scriptValid rest = true →
    step s = .next { State.resetWith s.cfg with script := rest, tick := s.tick }

/-- R23 (V1 to V6, V8 to V10) and R66: every step of the machine, whatever the environment chooses, a reset among its choices,
keeps the invariant. -/
def Obligations.StepKeepsTheInvariant : Prop :=
  ∀ s t : State, Inv s → step s = .next t → Inv t

/-- R23: the invariant holds right after reset, for all legal parameters. -/
def Obligations.InvariantHoldsAtReset : Prop :=
  Inv State.reset ∧ ∀ c : Config, c.wf = true → Inv (State.resetWith c)

/-- R163: from a terminal state every step of every agent completes, changes no register but `EDGE_PREV`, emits nothing but a
response, and leaves the state terminal. -/
def Obligations.TerminalStateStaysTerminal : Prop :=
  ∀ (s : State) (st : Stim), s.terminal = true →
    ∃ t : State, execStim st s = .next t ∧ t.terminal = true ∧
      t = { s with edgePrev := t.edgePrev, trace := t.trace } ∧
      ∃ acts : List Action, t.trace = s.trace ++ acts ∧ ∀ a ∈ acts, a.isResponse = true

/-- R49: the sample is requested only while the indicator is low, and after the low transition: of the callback's actions so far,
the last before the request is `IND(0)`. -/
def Obligations.SampleFollowsTheLowTransition : Prop :=
  ∀ (s : State) (e : Bool) (d : Sample), Inv s → s.phase = .smp →
    s.ind = false ∧ (s.trace.filter Action.ofCallback).getLast? = some (.ind false) ∧
    ∃ t : State, exec (.smp e d) s = .next t ∧ t.ind = false ∧ t.trace = s.trace ++ [.smpreq]

/-- R66: in every state that meets the invariant, the report of an event carries an index from 1 to `LIMIT` that fits in `W`
bits, and the value 0 when `fail[0]` is set. -/
def Obligations.ReportFields : Prop :=
  ∀ s : State, Inv s → s.phase = .rpt →
    ∃ (t : State) (r : Report), exec .rpt s = .next t ∧ t.trace = s.trace ++ [.rpt r] ∧
      r.index = s.count ∧ 1 ≤ r.index.toNat ∧ r.index ≤ s.limit ∧ r.index.toNat < 2 ^ s.cfg.width ∧
      r.fail.getLsbD 0 = s.sfail ∧ r.fail.getLsbD 1 = s.ifail ∧
      (r.fail.getLsbD 0 = false → r.value = s.sval) ∧ (r.fail.getLsbD 0 = true → r.value = 0)

/-- R66: `RPTWORD` holds `value` in bits 15:0, `fail` in bits 17:16 and `index` from bit 18 up, and nothing of a field is lost
when the index fits in `W` bits. -/
def Obligations.ReportWordPacking : Prop :=
  ∀ (w : Nat) (r : Report), w ≤ 32 → r.index.toNat < 2 ^ w →
    (rptWord w r).extractLsb' 0 16 = r.value ∧ (rptWord w r).extractLsb' 16 2 = r.fail ∧
    ((rptWord w r).extractLsb' 18 w).toNat = r.index.toNat

/-- R26: `smp_req` is 1 during `SMP` only, `rpt_valid` during `RPT` only, a response is given by HOST commands only, and a step
only ever appends to the trace. -/
def Obligations.StepPortsShowTheStep : Prop :=
  ∀ (i : Instr) (s t : State), exec i s = .next t →
    t.trace = s.trace ++ emitted s t ∧
    ((OutPorts.after (emitted s t) t).smpReq = true ↔ ∃ e d, i = .smp e d) ∧
    ((OutPorts.after (emitted s t) t).rpt.isSome = true ↔ i = .rpt) ∧
    ((OutPorts.after (emitted s t) t).rsp.isSome = true ↔
      (i = .nop ∨ i = .arm ∨ (∃ e, i = .disarm e) ∨ i = .rsv3 ∨ i = .rdstatus ∨ i = .rdcount ∨ i = .rdlimit ∨ i = .rsv7)) ∧
    (OutPorts.after (emitted s t) t).ind = t.ind ∧
    (OutPorts.after (emitted s t) t).armed = decide (t.life = .armed) ∧
    (OutPorts.after (emitted s t) t).fault = decide (t.life = .faulted) ∧
    (OutPorts.after (emitted s t) t).busy = decide (t.phase ≠ .idle)

/-! ### Progress -/

/-- R172: a SEQ step, once enabled, stays enabled until one is taken; only a `DISARM` while the sequencer is idle withdraws it. -/
def Obligations.EnabledSeqStepStaysEnabled : Prop :=
  ∀ (s : State) (st : Stim), s.seqEnabled = true → st.isSeq = false →
    ∃ t : State, execStim st s = .next t ∧ t.phase = s.phase ∧
      (t.seqEnabled = true ∨ (s.phase = .idle ∧ st.isDisarm = true))

/-- R172, R17: a raised indicator is lowered by the second SEQ step at the latest, however many steps of LINE and HOST fall
between. -/
def Obligations.IndicatorIsLoweredWithinTwoSeqSteps : Prop :=
  ∀ (s : State) (stims : List Stim), (s.ind = true ↔ (s.phase = .inc ∨ s.phase = .lo)) → s.ind = true →
    seqSteps stims = (if s.phase = .inc then 2 else 1) →
    ∃ t : State, runStims stims s = .next t ∧ t.ind = false ∧ t.phase = .smp

/-- R172: in an unending run in which SEQ is weakly fair, every callback in progress returns to IDLE with the indicator low, and
a latched edge is dispatched or dropped. Fairness is a premise (log 3). -/
def Obligations.FairRunFinishesEveryCallback : Prop :=
  ∀ (s : State) (schedule : Nat → Stim), Inv s → WeaklyFair schedule s →
    (∀ n, ∃ m, n ≤ m ∧ (stateAt schedule s m).phase = .idle ∧ (stateAt schedule s m).ind = false) ∧
    (∀ n, (stateAt schedule s n).pend = true →
      ∃ m, n ≤ m ∧ ((schedule m).isSeq = true ∧ (stateAt schedule s m).phase = .idle ∧
          (stateAt schedule s m).pend = true ∧ (stateAt schedule s m).life = .armed
        ∨ (stateAt schedule s m).life.over = true))

/-- R71: `RUN` ends, within eleven SEQ steps, in a state in which SEQ is not enabled, from any state and whatever the answers of
the Sample Source. Eleven is the model's bound (log 17). -/
def Obligations.RunPseudoOpEndsQuiescent : Prop :=
  ∀ (s : State) (e : Bool) (d : Sample),
    (runInputs e d runFuel s).length ≤ 11 ∧
    ∃ t : State, runListed (runInputs e d runFuel s) s = .next t ∧ t.quiescent = true

/-! ### The step of the machine -/

/-- R60, R72: a step runs the operation that the first listed word decodes to, in a state from which the word alone has been
taken; a word placed with `withFetchWord` runs next; from reset, the operation `decodeTableWord` reads; with no input
listed, the step is the environment's free move, whatever it is (log 1, 2, 4). -/
def Obligations.StepRunsTheDecodedInstruction : Prop :=
  (∀ (s : State) (w : StimWord) (rest : List Input) (i : Instr),
    s.script = .word w :: rest → scriptValid rest = true → decode w s.ctx = .ok i →
      step s = exec i { s with script := rest }) ∧
  (∀ (s : State) (nbits w : Nat) (i : Instr),
    w < 2 ^ 20 → scriptValid s.script = true → decode (BitVec.ofNat 20 w) s.ctx = .ok i →
      step (s.withFetchWord nbits w) = exec i s) ∧
  (∀ (nbits w : Nat) (i : Instr), decodeTableWord nbits w = some i →
      step (State.reset.withFetchWord nbits w) = exec i State.reset) ∧
  (∀ s : State, s.script = [] →
      step s = execMove (Config.freeMove s.tick) { s with tick := s.tick + 1 })

/-- R60, R69, U15: a step is refused exactly when the listed inputs hold a word that names no step, and then as a whole,
whatever the first input is; it never ends in a fault; in every other case it completes. The form is the model's: the list
of inputs (log 1), the free move where none is listed (log 2), and the refusal at the step, before any input is taken, by
position and reason (log 10). -/
def Obligations.StepCompletesOnEveryValidScript : Prop :=
  ∀ s : State,
    (scriptValid s.script = true → Completes (step s)) ∧
    (scriptValid s.script = false → ∃ (k : Nat) (w : StimWord) (why : Reject),
      step s = .refused (.invalidStim k why) ∧ s.script[k]? = some (.word w) ∧ Stim.ofWord w = .error why)

/-- R72, U7 and C11: a row asked for outside its `when` condition has no step, and inside it completes. -/
def Obligations.RowHasAStepExactlyUnderItsCondition : Prop :=
  ∀ (i : Instr) (s : State),
    (i.wellFormedIn s.ctx = true → Completes (exec i s)) ∧
    (i.wellFormedIn s.ctx = false → exec i s = .fault .noSuchStep)

/-! ### The initialization contract, the premise on the host -/

/-- R162: from reset, the host's items 1 to 3, in any order and any number of times but each at least once, followed by `ARM`,
lead to `Armed(0)` with the contract performed and the indicator low, and nothing else changed; with an item missing at
`ARM` the block is armed just the same, and the contract is not performed. The record of the items is the model's (log 13). -/
def Obligations.InitContractThenArmIsArmedZero : Prop :=
  ∀ (c : Config) (items : List SetupItem), ∃ (t : State) (u : Setup),
    runListed (items.map Input.setup ++ [.word 0x80001#20]) (State.resetWith c) = .next t ∧
    t = { State.resetWith c with life := .armed, setup := u, trace := [.rsp 0 false] } ∧ t.ind = false ∧
    (InitContractPerformed t ↔ ∀ item : SetupItem, item ∈ items)

/-- R162, U13: once the trigger has been armed, only a reset changes whether the contract was performed: it cannot be made up
for after an early `ARM`. Under the named premise `InitContractPerformed` every step of every agent completes and keeps the
premise and the invariant; and the step is the same whatever the host configured, so that what the other statements say of
every state they say with the premise and without it (log 13). -/
def Obligations.InitContractIsKeptAndChangesNoStep : Prop :=
  (∀ s t : State, s.life ≠ .unarmed → step s = .next t →
    (InitContractPerformed t ↔ InitContractPerformed s) ∨
      t = { State.resetWith s.cfg with script := t.script, tick := t.tick }) ∧
  UnderInitContract (fun s => Inv s → ∀ st : Stim, ∃ t : State,
    execStim st s = .next t ∧ InitContractPerformed t ∧ Inv t ∧
      ∀ u : Setup, execStim st { s with setup := u } = .next { t with setup := u })
end

