-- ==== Sys2Proof/Laws/State.lean ====
section
/-! SUPPORT. What each shared operation leaves in each field of the state, one lemma per field, so that no proof unfolds a
record update. -/

namespace Sys2Proof.Machine

variable (s : State)

/-! ### `emit` -/

@[simp] theorem State.emit_cfg (a : Action) : (s.emit a).cfg = s.cfg := rfl
@[simp] theorem State.emit_count (a : Action) : (s.emit a).count = s.count := rfl
@[simp] theorem State.emit_life (a : Action) : (s.emit a).life = s.life := rfl
@[simp] theorem State.emit_pend (a : Action) : (s.emit a).pend = s.pend := rfl
@[simp] theorem State.emit_edgePrev (a : Action) : (s.emit a).edgePrev = s.edgePrev := rfl
@[simp] theorem State.emit_phase (a : Action) : (s.emit a).phase = s.phase := rfl
@[simp] theorem State.emit_ind (a : Action) : (s.emit a).ind = s.ind := rfl
@[simp] theorem State.emit_sval (a : Action) : (s.emit a).sval = s.sval := rfl
@[simp] theorem State.emit_sfail (a : Action) : (s.emit a).sfail = s.sfail := rfl
@[simp] theorem State.emit_ifail (a : Action) : (s.emit a).ifail = s.ifail := rfl
@[simp] theorem State.emit_trace (a : Action) : (s.emit a).trace = s.trace ++ [a] := rfl
@[simp] theorem State.emit_setup (a : Action) : (s.emit a).setup = s.setup := rfl
@[simp] theorem State.emit_script (a : Action) : (s.emit a).script = s.script := rfl
@[simp] theorem State.emit_tick (a : Action) : (s.emit a).tick = s.tick := rfl

/-! ### `raise` -/

@[simp] theorem State.raise_cfg (f : Failure) : (s.raise f).cfg = s.cfg := by cases f <;> rfl
@[simp] theorem State.raise_count (f : Failure) : (s.raise f).count = s.count := by cases f <;> rfl
@[simp] theorem State.raise_life (f : Failure) :
    (s.raise f).life = if f = .triggerDisable then .faulted else s.life := by cases f <;> rfl
@[simp] theorem State.raise_pend (f : Failure) : (s.raise f).pend = s.pend := by cases f <;> rfl
@[simp] theorem State.raise_edgePrev (f : Failure) : (s.raise f).edgePrev = s.edgePrev := by cases f <;> rfl
@[simp] theorem State.raise_phase (f : Failure) : (s.raise f).phase = s.phase := by cases f <;> rfl
@[simp] theorem State.raise_ind (f : Failure) : (s.raise f).ind = s.ind := by cases f <;> rfl
@[simp] theorem State.raise_sval (f : Failure) : (s.raise f).sval = s.sval := by cases f <;> rfl
@[simp] theorem State.raise_sfail (f : Failure) :
    (s.raise f).sfail = (s.sfail || decide (f = .sampleRead)) := by cases f <;> simp [State.raise]
@[simp] theorem State.raise_ifail (f : Failure) :
    (s.raise f).ifail = (s.ifail || decide (f = .indicatorWrite)) := by cases f <;> simp [State.raise]
@[simp] theorem State.raise_trace (f : Failure) :
    (s.raise f).trace = s.trace ++ if f = .triggerDisable then [.fault] else [] := by cases f <;> simp [State.raise]
@[simp] theorem State.raise_setup (f : Failure) : (s.raise f).setup = s.setup := by cases f <;> rfl
@[simp] theorem State.raise_script (f : Failure) : (s.raise f).script = s.script := by cases f <;> rfl
@[simp] theorem State.raise_tick (f : Failure) : (s.raise f).tick = s.tick := by cases f <;> rfl

/-! ### `indWrite` -/

@[simp] theorem State.indWrite_cfg (v e : Bool) : (s.indWrite v e).cfg = s.cfg := by cases e <;> rfl
@[simp] theorem State.indWrite_count (v e : Bool) : (s.indWrite v e).count = s.count := by cases e <;> rfl
@[simp] theorem State.indWrite_life (v e : Bool) : (s.indWrite v e).life = s.life := by cases e <;> rfl
@[simp] theorem State.indWrite_pend (v e : Bool) : (s.indWrite v e).pend = s.pend := by cases e <;> rfl
@[simp] theorem State.indWrite_edgePrev (v e : Bool) : (s.indWrite v e).edgePrev = s.edgePrev := by cases e <;> rfl
@[simp] theorem State.indWrite_phase (v e : Bool) : (s.indWrite v e).phase = s.phase := by cases e <;> rfl
@[simp] theorem State.indWrite_ind (v e : Bool) : (s.indWrite v e).ind = v := by cases e <;> rfl
@[simp] theorem State.indWrite_sval (v e : Bool) : (s.indWrite v e).sval = s.sval := by cases e <;> rfl
@[simp] theorem State.indWrite_sfail (v e : Bool) : (s.indWrite v e).sfail = s.sfail := by cases e <;> rfl
@[simp] theorem State.indWrite_ifail (v e : Bool) :
    (s.indWrite v e).ifail = (s.ifail || e) := by cases e <;> simp [State.indWrite]
@[simp] theorem State.indWrite_trace (v e : Bool) :
    (s.indWrite v e).trace = s.trace ++ [.ind v] := by cases e <;> simp [State.indWrite]
@[simp] theorem State.indWrite_setup (v e : Bool) : (s.indWrite v e).setup = s.setup := by cases e <;> rfl
@[simp] theorem State.indWrite_script (v e : Bool) : (s.indWrite v e).script = s.script := by cases e <;> rfl
@[simp] theorem State.indWrite_tick (v e : Bool) : (s.indWrite v e).tick = s.tick := by cases e <;> rfl

/-! ### `sampleRead` -/

@[simp] theorem State.sampleRead_cfg (e : Bool) (d : Sample) : (s.sampleRead e d).cfg = s.cfg := by cases e <;> rfl
@[simp] theorem State.sampleRead_count (e : Bool) (d : Sample) :
    (s.sampleRead e d).count = s.count := by cases e <;> rfl
@[simp] theorem State.sampleRead_life (e : Bool) (d : Sample) : (s.sampleRead e d).life = s.life := by cases e <;> rfl
@[simp] theorem State.sampleRead_pend (e : Bool) (d : Sample) : (s.sampleRead e d).pend = s.pend := by cases e <;> rfl
@[simp] theorem State.sampleRead_edgePrev (e : Bool) (d : Sample) :
    (s.sampleRead e d).edgePrev = s.edgePrev := by cases e <;> rfl
@[simp] theorem State.sampleRead_phase (e : Bool) (d : Sample) :
    (s.sampleRead e d).phase = s.phase := by cases e <;> rfl
@[simp] theorem State.sampleRead_ind (e : Bool) (d : Sample) : (s.sampleRead e d).ind = s.ind := by cases e <;> rfl
@[simp] theorem State.sampleRead_sval (e : Bool) (d : Sample) :
    (s.sampleRead e d).sval = if e then 0 else d := by cases e <;> rfl
@[simp] theorem State.sampleRead_sfail (e : Bool) (d : Sample) :
    (s.sampleRead e d).sfail = e := by cases e <;> simp [State.sampleRead]
@[simp] theorem State.sampleRead_ifail (e : Bool) (d : Sample) :
    (s.sampleRead e d).ifail = s.ifail := by cases e <;> rfl
@[simp] theorem State.sampleRead_trace (e : Bool) (d : Sample) :
    (s.sampleRead e d).trace = s.trace ++ [.smpreq] := by cases e <;> simp [State.sampleRead]
@[simp] theorem State.sampleRead_setup (e : Bool) (d : Sample) :
    (s.sampleRead e d).setup = s.setup := by cases e <;> rfl
@[simp] theorem State.sampleRead_script (e : Bool) (d : Sample) :
    (s.sampleRead e d).script = s.script := by cases e <;> rfl
@[simp] theorem State.sampleRead_tick (e : Bool) (d : Sample) : (s.sampleRead e d).tick = s.tick := by cases e <;> rfl

/-! ### `report` -/

@[simp] theorem State.report_cfg (t : Report) : (s.report t).cfg = s.cfg := rfl
@[simp] theorem State.report_count (t : Report) : (s.report t).count = s.count := rfl
@[simp] theorem State.report_life (t : Report) : (s.report t).life = s.life := rfl
@[simp] theorem State.report_pend (t : Report) : (s.report t).pend = s.pend := rfl
@[simp] theorem State.report_edgePrev (t : Report) : (s.report t).edgePrev = s.edgePrev := rfl
@[simp] theorem State.report_phase (t : Report) : (s.report t).phase = s.phase := rfl
@[simp] theorem State.report_ind (t : Report) : (s.report t).ind = s.ind := rfl
@[simp] theorem State.report_sval (t : Report) : (s.report t).sval = s.sval := rfl
@[simp] theorem State.report_sfail (t : Report) : (s.report t).sfail = s.sfail := rfl
@[simp] theorem State.report_ifail (t : Report) : (s.report t).ifail = s.ifail := rfl
@[simp] theorem State.report_trace (t : Report) : (s.report t).trace = s.trace ++ [.rpt t] := rfl
@[simp] theorem State.report_setup (t : Report) : (s.report t).setup = s.setup := rfl
@[simp] theorem State.report_script (t : Report) : (s.report t).script = s.script := rfl
@[simp] theorem State.report_tick (t : Report) : (s.report t).tick = s.tick := rfl

/-! ### `arm` -/

@[simp] theorem State.arm_cfg : (s.arm).cfg = s.cfg := rfl
@[simp] theorem State.arm_count : (s.arm).count = s.count := rfl
@[simp] theorem State.arm_life : (s.arm).life = if s.life = .unarmed then .armed else s.life := rfl
@[simp] theorem State.arm_pend : (s.arm).pend = s.pend := rfl
@[simp] theorem State.arm_edgePrev : (s.arm).edgePrev = s.edgePrev := rfl
@[simp] theorem State.arm_phase : (s.arm).phase = s.phase := rfl
@[simp] theorem State.arm_ind : (s.arm).ind = s.ind := rfl
@[simp] theorem State.arm_sval : (s.arm).sval = s.sval := rfl
@[simp] theorem State.arm_sfail : (s.arm).sfail = s.sfail := rfl
@[simp] theorem State.arm_ifail : (s.arm).ifail = s.ifail := rfl
@[simp] theorem State.arm_trace : (s.arm).trace = s.trace := rfl
@[simp] theorem State.arm_setup : (s.arm).setup = s.setup := rfl
@[simp] theorem State.arm_script : (s.arm).script = s.script := rfl
@[simp] theorem State.arm_tick : (s.arm).tick = s.tick := rfl

/-! ### `disarm` -/

@[simp] theorem State.disarm_cfg (e : Bool) :
    (s.disarm e).cfg = s.cfg := by unfold State.disarm; split <;> cases e <;> simp
@[simp] theorem State.disarm_count (e : Bool) :
    (s.disarm e).count = s.count := by unfold State.disarm; split <;> cases e <;> simp
@[simp] theorem State.disarm_life (e : Bool) :
    (s.disarm e).life = if s.life = .armed then (if e then .faulted else .disarmed) else s.life := by unfold State.disarm; split <;> cases e <;> simp_all
@[simp] theorem State.disarm_pend (e : Bool) :
    (s.disarm e).pend = if s.life = .armed then false else s.pend := by unfold State.disarm; split <;> cases e <;> simp_all
@[simp] theorem State.disarm_edgePrev (e : Bool) :
    (s.disarm e).edgePrev = s.edgePrev := by unfold State.disarm; split <;> cases e <;> simp
@[simp] theorem State.disarm_phase (e : Bool) :
    (s.disarm e).phase = s.phase := by unfold State.disarm; split <;> cases e <;> simp
@[simp] theorem State.disarm_ind (e : Bool) :
    (s.disarm e).ind = s.ind := by unfold State.disarm; split <;> cases e <;> simp
@[simp] theorem State.disarm_sval (e : Bool) :
    (s.disarm e).sval = s.sval := by unfold State.disarm; split <;> cases e <;> simp
@[simp] theorem State.disarm_sfail (e : Bool) :
    (s.disarm e).sfail = s.sfail := by unfold State.disarm; split <;> cases e <;> simp
@[simp] theorem State.disarm_ifail (e : Bool) :
    (s.disarm e).ifail = s.ifail := by unfold State.disarm; split <;> cases e <;> simp
@[simp] theorem State.disarm_trace (e : Bool) :
    (s.disarm e).trace = s.trace ++ if s.life = .armed then [if e then .fault else .disarmed] else [] := by unfold State.disarm; split <;> cases e <;> simp_all
@[simp] theorem State.disarm_setup (e : Bool) :
    (s.disarm e).setup = s.setup := by unfold State.disarm; split <;> cases e <;> simp
@[simp] theorem State.disarm_script (e : Bool) :
    (s.disarm e).script = s.script := by unfold State.disarm; split <;> cases e <;> simp
@[simp] theorem State.disarm_tick (e : Bool) :
    (s.disarm e).tick = s.tick := by unfold State.disarm; split <;> cases e <;> simp

/-! ### `takeEvent` -/

@[simp] theorem State.takeEvent_cfg (e : Bool) :
    (s.takeEvent e).cfg = s.cfg := by unfold State.takeEvent; split <;> simp
@[simp] theorem State.takeEvent_count (e : Bool) :
    (s.takeEvent e).count = s.count := by unfold State.takeEvent; split <;> simp
@[simp] theorem State.takeEvent_life (e : Bool) :
    (s.takeEvent e).life = if s.atLimit = true ∧ s.life = .armed then (if e then .faulted else .disarmed) else s.life := by unfold State.takeEvent; split <;> simp_all
@[simp] theorem State.takeEvent_pend (e : Bool) :
    (s.takeEvent e).pend = false := by unfold State.takeEvent; split <;> simp
@[simp] theorem State.takeEvent_edgePrev (e : Bool) :
    (s.takeEvent e).edgePrev = s.edgePrev := by unfold State.takeEvent; split <;> simp
@[simp] theorem State.takeEvent_phase (e : Bool) :
    (s.takeEvent e).phase = if s.atLimit then s.phase else .hi := by unfold State.takeEvent; split <;> simp_all
@[simp] theorem State.takeEvent_ind (e : Bool) :
    (s.takeEvent e).ind = s.ind := by unfold State.takeEvent; split <;> simp
@[simp] theorem State.takeEvent_sval (e : Bool) :
    (s.takeEvent e).sval = s.sval := by unfold State.takeEvent; split <;> simp
@[simp] theorem State.takeEvent_sfail (e : Bool) :
    (s.takeEvent e).sfail = s.sfail := by unfold State.takeEvent; split <;> simp
@[simp] theorem State.takeEvent_ifail (e : Bool) :
    (s.takeEvent e).ifail = s.ifail := by unfold State.takeEvent; split <;> simp
@[simp] theorem State.takeEvent_trace (e : Bool) :
    (s.takeEvent e).trace = s.trace ++ if s.atLimit = true ∧ s.life = .armed then [if e then .fault else .disarmed] else [] := by unfold State.takeEvent; split <;> simp_all
@[simp] theorem State.takeEvent_setup (e : Bool) :
    (s.takeEvent e).setup = s.setup := by unfold State.takeEvent; split <;> simp
@[simp] theorem State.takeEvent_script (e : Bool) :
    (s.takeEvent e).script = s.script := by unfold State.takeEvent; split <;> simp
@[simp] theorem State.takeEvent_tick (e : Bool) :
    (s.takeEvent e).tick = s.tick := by unfold State.takeEvent; split <;> simp

/-! ### `returnFromEvent` -/

@[simp] theorem State.returnFromEvent_cfg : (s.returnFromEvent).cfg = s.cfg := rfl
@[simp] theorem State.returnFromEvent_count : (s.returnFromEvent).count = s.count := rfl
@[simp] theorem State.returnFromEvent_life : (s.returnFromEvent).life = s.life := rfl
@[simp] theorem State.returnFromEvent_pend : (s.returnFromEvent).pend = s.pend := rfl
@[simp] theorem State.returnFromEvent_edgePrev : (s.returnFromEvent).edgePrev = s.edgePrev := rfl
@[simp] theorem State.returnFromEvent_phase : (s.returnFromEvent).phase = .idle := rfl
@[simp] theorem State.returnFromEvent_ind : (s.returnFromEvent).ind = s.ind := rfl
@[simp] theorem State.returnFromEvent_sval : (s.returnFromEvent).sval = 0 := rfl
@[simp] theorem State.returnFromEvent_sfail : (s.returnFromEvent).sfail = false := rfl
@[simp] theorem State.returnFromEvent_ifail : (s.returnFromEvent).ifail = false := rfl
@[simp] theorem State.returnFromEvent_trace : (s.returnFromEvent).trace = s.trace := rfl
@[simp] theorem State.returnFromEvent_setup : (s.returnFromEvent).setup = s.setup := rfl
@[simp] theorem State.returnFromEvent_script : (s.returnFromEvent).script = s.script := rfl
@[simp] theorem State.returnFromEvent_tick : (s.returnFromEvent).tick = s.tick := rfl

/-! ### `respond` -/

@[simp] theorem State.respond_cfg (data : Word) (err : Bool) : (s.respond data err).cfg = s.cfg := rfl
@[simp] theorem State.respond_count (data : Word) (err : Bool) : (s.respond data err).count = s.count := rfl
@[simp] theorem State.respond_life (data : Word) (err : Bool) : (s.respond data err).life = s.life := rfl
@[simp] theorem State.respond_pend (data : Word) (err : Bool) : (s.respond data err).pend = s.pend := rfl
@[simp] theorem State.respond_edgePrev (data : Word) (err : Bool) : (s.respond data err).edgePrev = s.edgePrev := rfl
@[simp] theorem State.respond_phase (data : Word) (err : Bool) : (s.respond data err).phase = s.phase := rfl
@[simp] theorem State.respond_ind (data : Word) (err : Bool) : (s.respond data err).ind = s.ind := rfl
@[simp] theorem State.respond_sval (data : Word) (err : Bool) : (s.respond data err).sval = s.sval := rfl
@[simp] theorem State.respond_sfail (data : Word) (err : Bool) : (s.respond data err).sfail = s.sfail := rfl
@[simp] theorem State.respond_ifail (data : Word) (err : Bool) : (s.respond data err).ifail = s.ifail := rfl
@[simp] theorem State.respond_trace (data : Word) (err : Bool) :
    (s.respond data err).trace = s.trace ++ [.rsp data err] := rfl
@[simp] theorem State.respond_setup (data : Word) (err : Bool) : (s.respond data err).setup = s.setup := rfl
@[simp] theorem State.respond_script (data : Word) (err : Bool) : (s.respond data err).script = s.script := rfl
@[simp] theorem State.respond_tick (data : Word) (err : Bool) : (s.respond data err).tick = s.tick := rfl

/-! ### `respondRead` -/

@[simp] theorem State.respondRead_cfg (k : BitVec 2) :
    (s.respondRead k).cfg = s.cfg := by unfold State.respondRead; split <;> rfl
@[simp] theorem State.respondRead_count (k : BitVec 2) :
    (s.respondRead k).count = s.count := by unfold State.respondRead; split <;> rfl
@[simp] theorem State.respondRead_life (k : BitVec 2) :
    (s.respondRead k).life = s.life := by unfold State.respondRead; split <;> rfl
@[simp] theorem State.respondRead_pend (k : BitVec 2) :
    (s.respondRead k).pend = s.pend := by unfold State.respondRead; split <;> rfl
@[simp] theorem State.respondRead_edgePrev (k : BitVec 2) :
    (s.respondRead k).edgePrev = s.edgePrev := by unfold State.respondRead; split <;> rfl
@[simp] theorem State.respondRead_phase (k : BitVec 2) :
    (s.respondRead k).phase = s.phase := by unfold State.respondRead; split <;> rfl
@[simp] theorem State.respondRead_ind (k : BitVec 2) :
    (s.respondRead k).ind = s.ind := by unfold State.respondRead; split <;> rfl
@[simp] theorem State.respondRead_sval (k : BitVec 2) :
    (s.respondRead k).sval = s.sval := by unfold State.respondRead; split <;> rfl
@[simp] theorem State.respondRead_sfail (k : BitVec 2) :
    (s.respondRead k).sfail = s.sfail := by unfold State.respondRead; split <;> rfl
@[simp] theorem State.respondRead_ifail (k : BitVec 2) :
    (s.respondRead k).ifail = s.ifail := by unfold State.respondRead; split <;> rfl
@[simp] theorem State.respondRead_trace (k : BitVec 2) :
    (s.respondRead k).trace = s.trace ++ [.rsp ((s.regRead k).getD 0) (s.regRead k).isNone] := by unfold State.respondRead; split <;> simp_all
@[simp] theorem State.respondRead_setup (k : BitVec 2) :
    (s.respondRead k).setup = s.setup := by unfold State.respondRead; split <;> rfl
@[simp] theorem State.respondRead_script (k : BitVec 2) :
    (s.respondRead k).script = s.script := by unfold State.respondRead; split <;> rfl
@[simp] theorem State.respondRead_tick (k : BitVec 2) :
    (s.respondRead k).tick = s.tick := by unfold State.respondRead; split <;> rfl

/-! ### `applyReset` -/

@[simp] theorem State.applyReset_cfg : (s.applyReset).cfg = s.cfg := rfl
@[simp] theorem State.applyReset_count : (s.applyReset).count = 0 := rfl
@[simp] theorem State.applyReset_life : (s.applyReset).life = .unarmed := rfl
@[simp] theorem State.applyReset_pend : (s.applyReset).pend = false := rfl
@[simp] theorem State.applyReset_edgePrev : (s.applyReset).edgePrev = false := rfl
@[simp] theorem State.applyReset_phase : (s.applyReset).phase = .idle := rfl
@[simp] theorem State.applyReset_ind : (s.applyReset).ind = false := rfl
@[simp] theorem State.applyReset_sval : (s.applyReset).sval = 0 := rfl
@[simp] theorem State.applyReset_sfail : (s.applyReset).sfail = false := rfl
@[simp] theorem State.applyReset_ifail : (s.applyReset).ifail = false := rfl
@[simp] theorem State.applyReset_trace : (s.applyReset).trace = [] := rfl
@[simp] theorem State.applyReset_setup : (s.applyReset).setup = Setup.nothing := rfl
@[simp] theorem State.applyReset_script : (s.applyReset).script = s.script := rfl
@[simp] theorem State.applyReset_tick : (s.applyReset).tick = s.tick := rfl

/-! ### `sampleLine` -/

@[simp] theorem State.sampleLine_cfg (v : Bool) : (s.sampleLine v).cfg = s.cfg := rfl
@[simp] theorem State.sampleLine_count (v : Bool) : (s.sampleLine v).count = s.count := rfl
@[simp] theorem State.sampleLine_life (v : Bool) : (s.sampleLine v).life = s.life := rfl
@[simp] theorem State.sampleLine_pend (v : Bool) :
    (s.sampleLine v).pend = (s.pend || (s.falls v && decide (s.life = .armed))) := rfl
@[simp] theorem State.sampleLine_edgePrev (v : Bool) : (s.sampleLine v).edgePrev = v := rfl
@[simp] theorem State.sampleLine_phase (v : Bool) : (s.sampleLine v).phase = s.phase := rfl
@[simp] theorem State.sampleLine_ind (v : Bool) : (s.sampleLine v).ind = s.ind := rfl
@[simp] theorem State.sampleLine_sval (v : Bool) : (s.sampleLine v).sval = s.sval := rfl
@[simp] theorem State.sampleLine_sfail (v : Bool) : (s.sampleLine v).sfail = s.sfail := rfl
@[simp] theorem State.sampleLine_ifail (v : Bool) : (s.sampleLine v).ifail = s.ifail := rfl
@[simp] theorem State.sampleLine_trace (v : Bool) : (s.sampleLine v).trace = s.trace := rfl
@[simp] theorem State.sampleLine_setup (v : Bool) : (s.sampleLine v).setup = s.setup := rfl
@[simp] theorem State.sampleLine_script (v : Bool) : (s.sampleLine v).script = s.script := rfl
@[simp] theorem State.sampleLine_tick (v : Bool) : (s.sampleLine v).tick = s.tick := rfl

/-! ### `configure` -/

@[simp] theorem State.configure_cfg (item : SetupItem) : (s.configure item).cfg = s.cfg := rfl
@[simp] theorem State.configure_count (item : SetupItem) : (s.configure item).count = s.count := rfl
@[simp] theorem State.configure_life (item : SetupItem) : (s.configure item).life = s.life := rfl
@[simp] theorem State.configure_pend (item : SetupItem) : (s.configure item).pend = s.pend := rfl
@[simp] theorem State.configure_edgePrev (item : SetupItem) : (s.configure item).edgePrev = s.edgePrev := rfl
@[simp] theorem State.configure_phase (item : SetupItem) : (s.configure item).phase = s.phase := rfl
@[simp] theorem State.configure_ind (item : SetupItem) : (s.configure item).ind = s.ind := rfl
@[simp] theorem State.configure_sval (item : SetupItem) : (s.configure item).sval = s.sval := rfl
@[simp] theorem State.configure_sfail (item : SetupItem) : (s.configure item).sfail = s.sfail := rfl
@[simp] theorem State.configure_ifail (item : SetupItem) : (s.configure item).ifail = s.ifail := rfl
@[simp] theorem State.configure_trace (item : SetupItem) : (s.configure item).trace = s.trace := rfl
@[simp] theorem State.configure_setup (item : SetupItem) :
    (s.configure item).setup = if s.life = .unarmed then s.setup.perform item else s.setup := rfl
@[simp] theorem State.configure_script (item : SetupItem) : (s.configure item).script = s.script := rfl
@[simp] theorem State.configure_tick (item : SetupItem) : (s.configure item).tick = s.tick := rfl

end Sys2Proof.Machine
end

