-- ==== Sys2Proof/Laws/Word.lean ====
section
/-! SUPPORT. The fields of an assembled stimulus word, and the arithmetic of the `W`-bit registers. -/

namespace Sys2Proof

open Machine

/-! ### Fields of `stimWord agent e d` -/

/-- Bit `i` of an assembled word is the bit of the field it lies in. -/
theorem getLsbD_stimWord (agent : BitVec 2) (e : Bool) (d : BitVec 16) (i : Nat) :
    (stimWord agent e d).getLsbD i =
      if i < 16 then d.getLsbD i else if i = 16 then e else if i = 17 then false else agent.getLsbD (i - 18) := by
  have h : (stimWord agent e d).getLsbD i = ((agent ++ 0#1 ++ BitVec.ofBool e : BitVec (2 + 1 + 1)) ++ d).getLsbD i := rfl
  rw [h, BitVec.getLsbD_append]
  by_cases h1 : i < 16
  · simp [h1]
  rw [BitVec.getLsbD_append]
  by_cases h2 : i = 16
  · subst h2; simp
  rw [BitVec.getLsbD_append]
  by_cases h3 : i = 17
  · subst h3; simp
  simp only [h1, h2, h3, if_false, show ¬ i - 16 < 1 by omega, show ¬ i - 16 - 1 < 1 by omega,
    show i - 16 - 1 - 1 = i - 18 by omega]

@[simp] theorem agentOf_stimWord (agent : BitVec 2) (e : Bool) (d : BitVec 16) :
    agentOf (stimWord agent e d) = agent := by
  apply BitVec.eq_of_getLsbD_eq
  intro i hi
  rw [agentOf, BitVec.getLsbD_extractLsb', getLsbD_stimWord]
  simp [hi, show ¬ 18 + i < 16 by omega, show ¬ 18 + i = 16 by omega, show ¬ 18 + i = 17 by omega]

@[simp] theorem bit17Of_stimWord (agent : BitVec 2) (e : Bool) (d : BitVec 16) :
    bit17Of (stimWord agent e d) = false := by
  rw [bit17Of, getLsbD_stimWord]; rfl

@[simp] theorem eOf_stimWord (agent : BitVec 2) (e : Bool) (d : BitVec 16) :
    eOf (stimWord agent e d) = e := by
  rw [eOf, getLsbD_stimWord]; rfl

@[simp] theorem dOf_stimWord (agent : BitVec 2) (e : Bool) (d : BitVec 16) :
    dOf (stimWord agent e d) = d := by
  apply BitVec.eq_of_getLsbD_eq
  intro i hi
  rw [dOf, BitVec.getLsbD_extractLsb', getLsbD_stimWord]
  simp [hi]

/-- The word of a LINE step is read as that step, whatever its level. -/
theorem ofWord_stimWord_line (e v : Bool) : Stim.ofWord (stimWord 1#2 e (0#15 ++ BitVec.ofBool v)) = .ok (.line v) := by
  cases v <;> simp [Stim.ofWord]

/-- Every word with `AGENT = 0` and bit 17 clear is the SEQ step with its draws. -/
theorem ofWord_stimWord_seq (e : Bool) (d : BitVec 16) : Stim.ofWord (stimWord 0#2 e d) = .ok (.seq e d) := by
  simp [Stim.ofWord]

/-- The word of a HOST step is read as that step. -/
theorem ofWord_stimWord_host (e : Bool) (cmd : BitVec 3) :
    Stim.ofWord (stimWord 2#2 e (0#13 ++ cmd)) = .ok (.host e cmd) := by
  have h : ∀ c : BitVec 3, (0#13 ++ c).extractLsb' 3 13 = 0#13 ∧ (0#13 ++ c).extractLsb' 0 3 = c := by decide
  simp [Stim.ofWord, (h cmd).1, (h cmd).2]

/-! ### `W`-bit arithmetic (R5, R100) -/

/-- A legal configuration has `2^W <= 2^32`. -/
theorem Config.wf_spec (c : Config) (h : c.wf = true) :
    1 ≤ c.width ∧ c.width ≤ 32 ∧ 2 ^ c.width ≤ 2 ^ 32 ∧ c.eventLimit.toNat < 2 ^ c.width := by
  simp only [Config.wf, Bool.and_eq_true, decide_eq_true_eq] at h
  exact ⟨h.1.1, h.1.2, Nat.pow_le_pow_right (by decide) h.1.2, h.2⟩

namespace Machine

/-- Below all ones the counter adds 1 in the naturals (R100). -/
theorem incr_toNat (w : Nat) (c : Word) (hw : 2 ^ w ≤ 2 ^ 32) (h : c.toNat + 1 < 2 ^ w) :
    (incr w c).toNat = c.toNat + 1 := by
  rw [incr, BitVec.toNat_ofNat, Nat.mod_eq_of_lt h, Nat.mod_eq_of_lt (by omega)]

/-- A counter that was below a `W`-bit limit adds 1 without wrapping (R100). -/
theorem incr_eq_add_one (w : Nat) (c : Word) (hw : 2 ^ w ≤ 2 ^ 32) (h : c.toNat + 1 < 2 ^ w) : incr w c = c + 1 := by
  apply BitVec.eq_of_toNat_eq
  have := c.isLt
  rw [incr_toNat w c hw h, BitVec.toNat_add_of_lt] <;> (simp; try omega)

/-- A register that holds `W` bits is its own zero-extension (R68). -/
theorem zext32_of_lt (w : Nat) (v : Word) (h : v.toNat < 2 ^ w) : zext32 w v = v := by
  rw [zext32, Nat.mod_eq_of_lt h, BitVec.ofNat_toNat, BitVec.setWidth_eq]

end Machine

end Sys2Proof
end

