-- ==== Sys2Proof/Laws/Ops.lean ====
section
/-! SUPPORT. For each shared operation, once, everything it does. -/

namespace Sys2Proof.Machine

/-- `IndWrite(v)` as one record update (R46). -/
theorem State.indWrite_eq (s : State) (v e : Bool) :
    s.indWrite v e = { s with ind := v, ifail := s.ifail || e, trace := s.trace ++ [.ind v] } := by
  cases e <;> simp [State.indWrite, State.emit, State.raise]

/-- `SampleRead()` and its answer as one record update (R45, R96). -/
theorem State.sampleRead_eq (s : State) (e : Bool) (d : Sample) :
    s.sampleRead e d = { s with sval := if e then 0 else d, sfail := e, trace := s.trace ++ [.smpreq] } := by
  cases e <;> simp [State.sampleRead, State.emit, State.raise]

/-- `Disarm(e)` where it acts (R92). -/
theorem State.disarm_of_armed (s : State) (e : Bool) (h : s.life = .armed) :
    s.disarm e = { s with pend := false, life := if e then .faulted else .disarmed,
                          trace := s.trace ++ [if e then .fault else .disarmed] } := by
  cases e <;> simp [State.disarm, h, State.emit, State.raise]

/-- `Disarm(e)` where it does not act (R92). -/
theorem State.disarm_of_not_armed (s : State) (e : Bool) (h : s.life ≠ .armed) : s.disarm e = s := by
  simp [State.disarm, h]

/-- Entry on the accepting branch (R91). -/
theorem State.takeEvent_of_below (s : State) (e : Bool) (h : s.atLimit = false) :
    s.takeEvent e = { s with pend := false, phase := .hi } := by
  simp [State.takeEvent, h]

/-- Entry on the disarming branch is the disarm primitive on the state with the event taken (R91). -/
theorem State.takeEvent_of_atLimit (s : State) (e : Bool) (h : s.atLimit = true) :
    s.takeEvent e = ({ s with pend := false } : State).disarm e := by
  simp [State.takeEvent, h]

@[simp] theorem State.regRead_zero (s : State) : s.regRead 0#2 = some s.status := rfl
@[simp] theorem State.regRead_one (s : State) : s.regRead 1#2 = some (zext32 s.cfg.width s.count) := rfl
@[simp] theorem State.regRead_two (s : State) : s.regRead 2#2 = some (zext32 s.cfg.width s.limit) := rfl
@[simp] theorem State.regRead_three (s : State) : s.regRead 3#2 = none := rfl

/-- A response appends one action and changes nothing else (R62). -/
theorem State.respond_eq (s : State) (data : Word) (err : Bool) :
    s.respond data err = { s with trace := s.trace ++ [.rsp data err] } := rfl

/-- A read command appends one response and changes nothing else (R44, R62). -/
theorem State.respondRead_eq (s : State) (k : BitVec 2) :
    s.respondRead k = { s with trace := s.trace ++ [.rsp ((s.regRead k).getD 0) (s.regRead k).isNone] } := by
  unfold State.respondRead
  cases s.regRead k <;> rfl

/-- A LINE step writes `EDGE_PREV` and `PEND` only (R80). -/
theorem State.sampleLine_eq (s : State) (v : Bool) :
    s.sampleLine v = { s with edgePrev := v, pend := s.pend || (s.edgePrev && !v && decide (s.life = .armed)) } := rfl

/-- A row that answers a next state was asked for where its condition holds, and the state is its effect. -/
theorem whenSelected_next_iff (i : Instr) (s t u : State) :
    whenSelected i s t = .next u ↔ i.wellFormedIn s.ctx = true ∧ t = u := by
  unfold whenSelected
  split <;> simp_all

/-- A row asked for where its condition holds has its effect. -/
theorem whenSelected_of_wellFormed {i : Instr} {s : State} (t : State) (h : i.wellFormedIn s.ctx = true) :
    whenSelected i s t = .next t := by
  simp [whenSelected, h]

/-- A row asked for outside its condition has no step. -/
theorem whenSelected_of_not {i : Instr} {s : State} (t : State) (h : i.wellFormedIn s.ctx = false) :
    whenSelected i s t = .fault .noSuchStep := by
  simp [whenSelected, h]

@[simp] theorem State.ctx_life (s : State) : s.ctx.life = s.life := rfl
@[simp] theorem State.ctx_pend (s : State) : s.ctx.pend = s.pend := rfl
@[simp] theorem State.ctx_edgePrev (s : State) : s.ctx.edgePrev = s.edgePrev := rfl
@[simp] theorem State.ctx_phase (s : State) : s.ctx.phase = s.phase := rfl

/-! ### The `when` column, on a state -/

@[simp] theorem wellFormedIn_lineFall (s : State) : Instr.lineFall.wellFormedIn s.ctx = s.edgePrev := rfl
@[simp] theorem wellFormedIn_lineRise (s : State) : Instr.lineRise.wellFormedIn s.ctx = !s.edgePrev := rfl
@[simp] theorem wellFormedIn_lineHold0 (s : State) : Instr.lineHold0.wellFormedIn s.ctx = !s.edgePrev := rfl
@[simp] theorem wellFormedIn_lineHold1 (s : State) : Instr.lineHold1.wellFormedIn s.ctx = s.edgePrev := rfl

@[simp] theorem wellFormedIn_seqNone (s : State) :
    Instr.seqNone.wellFormedIn s.ctx = true ↔ s.phase = .idle ∧ ¬(s.pend = true ∧ s.life = .armed) := by
  unfold Instr.wellFormedIn State.ctx
  cases s.phase <;> cases s.pend <;> cases s.life <;> simp

@[simp] theorem wellFormedIn_dispatch (s : State) (e : Bool) :
    (Instr.dispatch e).wellFormedIn s.ctx = true ↔ s.phase = .idle ∧ s.pend = true ∧ s.life = .armed := by
  unfold Instr.wellFormedIn State.ctx
  cases s.phase <;> cases s.pend <;> cases s.life <;> simp

@[simp] theorem wellFormedIn_hi (s : State) (e : Bool) :
    (Instr.hi e).wellFormedIn s.ctx = true ↔ s.phase = .hi := decide_eq_true_iff

@[simp] theorem wellFormedIn_inc (s : State) : Instr.inc.wellFormedIn s.ctx = true ↔ s.phase = .inc := decide_eq_true_iff

@[simp] theorem wellFormedIn_lo (s : State) (e : Bool) :
    (Instr.lo e).wellFormedIn s.ctx = true ↔ s.phase = .lo := decide_eq_true_iff

@[simp] theorem wellFormedIn_smp (s : State) (e : Bool) (d : Sample) :
    (Instr.smp e d).wellFormedIn s.ctx = true ↔ s.phase = .smp := decide_eq_true_iff

@[simp] theorem wellFormedIn_rpt (s : State) : Instr.rpt.wellFormedIn s.ctx = true ↔ s.phase = .rpt := decide_eq_true_iff

/-- `seq_enabled` as the formula of R90. -/
theorem State.seqEnabled_iff (s : State) :
    s.seqEnabled = true ↔ s.phase ≠ .idle ∨ (s.phase = .idle ∧ s.pend = true ∧ s.life = .armed) := by
  simp only [State.seqEnabled, Ctx.seqEnabled, Bool.or_eq_true, Bool.and_eq_true, decide_eq_true_eq, and_assoc]; rfl

/-- The comparator as a comparison of unsigned numbers (R20). -/
theorem State.atLimit_iff (s : State) : s.atLimit = true ↔ s.limit ≤ s.count := by
  simp [State.atLimit]

theorem State.atLimit_eq_false_iff (s : State) : s.atLimit = false ↔ s.count < s.limit := by
  simp [State.atLimit]

end Sys2Proof.Machine
end

