-- ==== Sys2Proof/Laws/Step.lean ====
section
/-! SUPPORT. What the decoder selects, what a list of inputs is checked for, and what one step can do. -/

namespace Sys2Proof

open Machine

/-- The operation a step selects is asked for where its condition holds. -/
theorem select_wellFormedIn (st : Stim) (c : Ctx) : (select st c).wellFormedIn c = true := by
  obtain ⟨life, pend, edgePrev, phase⟩ := c
  cases st with
  | line v => cases v <;> cases edgePrev <;> rfl
  | seq e d => cases phase <;> cases pend <;> cases life <;> rfl
  | host e cmd =>
    have h : ∀ (a : Bool) (b : BitVec 3), (selectHost a b).wellFormedIn ⟨life, pend, edgePrev, phase⟩ = true := by
      intro a b
      unfold selectHost
      split <;> rfl
    exact h e cmd

namespace Machine

/-- The list is checked from any position with the same verdict. -/
theorem firstInvalid_isNone_shift (inputs : List Input) (k n : Nat) :
    (firstInvalid k inputs).isNone = (firstInvalid n inputs).isNone := by
  induction inputs generalizing k n with
  | nil => rfl
  | cons inp rest ih =>
    cases inp with
    | rst => exact ih _ _
    | setup item => exact ih _ _
    | word w => cases h : Stim.ofWord w <;> simp [firstInvalid, h, ih (k + 1) (n + 1)]

/-- A list whose first input is a word is valid when the word names a step and the rest is valid. -/
theorem scriptValid_word (w : StimWord) (rest : List Input) :
    scriptValid (.word w :: rest) = true ↔ (∃ st, Stim.ofWord w = .ok st) ∧ scriptValid rest = true := by
  cases h : Stim.ofWord w with
  | error why => simp [scriptValid, firstInvalid, h]
  | ok st => simp only [scriptValid, firstInvalid, h, firstInvalid_isNone_shift rest 1 0]; simp

/-- A list whose first input is a reset is valid when the rest is. -/
theorem scriptValid_rst (rest : List Input) : scriptValid (.rst :: rest) = scriptValid rest := by
  simp only [scriptValid, firstInvalid, firstInvalid_isNone_shift rest 1 0]

/-- A list whose first input configures a collaborator is valid when the rest is. -/
theorem scriptValid_setup (item : SetupItem) (rest : List Input) :
    scriptValid (.setup item :: rest) = scriptValid rest := by
  simp only [scriptValid, firstInvalid, firstInvalid_isNone_shift rest 1 0]

/-- What one step can do: a free move where no input is listed; a refusal where the list holds an invalid word; the first
input otherwise. -/
theorem step_cases (s : State) :
    (s.script = [] ∧ step s = execMove (Config.freeMove s.tick) { s with tick := s.tick + 1 }) ∨
    (∃ k why, firstInvalid 0 s.script = some (k, why) ∧ step s = .refused (.invalidStim k why)) ∨
    (∃ inp rest, s.script = inp :: rest ∧ scriptValid s.script = true ∧
      step s = execInput inp { s with script := rest }) := by
  cases hs : s.script with
  | nil => left; simp [step, stepOnce, hs]
  | cons inp rest =>
    right
    cases hf : firstInvalid 0 (inp :: rest) with
    | some p =>
      obtain ⟨k, why⟩ := p
      exact .inl ⟨k, why, rfl, by simp [step, stepOnce, hs, hf]⟩
    | none => exact .inr ⟨inp, rest, rfl, by simp [scriptValid, hf], by simp [step, stepOnce, hs, hf]⟩

/-- A claim about every state holds under the premise that the initialization contract was performed (R162). -/
theorem underInitContract_of_forall {claim : State → Prop} (h : ∀ s, claim s) : UnderInitContract claim :=
  fun s _ => h s

/-- The recogniser of V3 reads one more action. -/
@[simp] theorem scanTrace_append (tr : List Action) (a : Action) :
    scanTrace (tr ++ [a]) = scanAction (scanTrace tr) a := by
  simp [scanTrace]

end Machine

end Sys2Proof
end

