-- ==== Sys2Proof/Laws/Exec.lean ====
section
/-! SUPPORT. For each step of each agent, once, the state it reaches. -/

namespace Sys2Proof.Machine

/-- A SEQ stimulus where SEQ is not enabled (R90). -/
theorem execStim_seq_of_not_enabled (s : State) (e : Bool) (d : Sample) (h : s.seqEnabled = false) :
    execStim (.seq e d) s = .next s := by
  obtain ⟨cfg, count, life, pend, edgePrev, phase, ind, sval, sfail, ifail, trace, setup, script, tick⟩ := s
  cases phase <;> cases life <;> cases pend <;>
    first | rfl | simp [State.seqEnabled, Ctx.seqEnabled, State.ctx] at h

/-- `DISPATCH` (R91). -/
theorem execStim_seq_dispatch (s : State) (e : Bool) (d : Sample) (hp : s.phase = .idle) (hpend : s.pend = true)
    (hl : s.life = .armed) : execStim (.seq e d) s = .next (s.takeEvent e) := by
  obtain ⟨cfg, count, life, pend, edgePrev, phase, ind, sval, sfail, ifail, trace, setup, script, tick⟩ := s
  simp only at hp hpend hl
  subst hp hpend hl
  rfl

/-- `HI` (R93). -/
theorem execStim_seq_hi (s : State) (e : Bool) (d : Sample) (h : s.phase = .hi) :
    execStim (.seq e d) s =
      .next { s with ind := true, ifail := s.ifail || e, phase := .inc, trace := s.trace ++ [.ind true] } := by
  obtain ⟨cfg, count, life, pend, edgePrev, phase, ind, sval, sfail, ifail, trace, setup, script, tick⟩ := s
  simp only at h
  subst h
  cases e <;> cases ifail <;> rfl

/-- `INC` (R94). -/
theorem execStim_seq_inc (s : State) (e : Bool) (d : Sample) (h : s.phase = .inc) :
    execStim (.seq e d) s = .next { s with count := incr s.cfg.width s.count, phase := .lo } := by
  obtain ⟨cfg, count, life, pend, edgePrev, phase, ind, sval, sfail, ifail, trace, setup, script, tick⟩ := s
  simp only at h
  subst h
  rfl

/-- `LO` (R95). -/
theorem execStim_seq_lo (s : State) (e : Bool) (d : Sample) (h : s.phase = .lo) :
    execStim (.seq e d) s =
      .next { s with ind := false, ifail := s.ifail || e, phase := .smp, trace := s.trace ++ [.ind false] } := by
  obtain ⟨cfg, count, life, pend, edgePrev, phase, ind, sval, sfail, ifail, trace, setup, script, tick⟩ := s
  simp only at h
  subst h
  cases e <;> cases ifail <;> rfl

/-- `SMP` (R96). -/
theorem execStim_seq_smp (s : State) (e : Bool) (d : Sample) (h : s.phase = .smp) :
    execStim (.seq e d) s =
      .next { s with sval := if e then 0 else d, sfail := e, phase := .rpt, trace := s.trace ++ [.smpreq] } := by
  obtain ⟨cfg, count, life, pend, edgePrev, phase, ind, sval, sfail, ifail, trace, setup, script, tick⟩ := s
  simp only at h
  subst h
  cases e <;> rfl

/-- `RPT` (R97). -/
theorem execStim_seq_rpt (s : State) (e : Bool) (d : Sample) (h : s.phase = .rpt) :
    execStim (.seq e d) s =
      .next { s with sval := 0, sfail := false, ifail := false, phase := .idle,
                     trace := s.trace ++ [.rpt s.reportTuple] } := by
  obtain ⟨cfg, count, life, pend, edgePrev, phase, ind, sval, sfail, ifail, trace, setup, script, tick⟩ := s
  simp only at h
  subst h
  rfl

/-- A LINE step (R80). -/
theorem execStim_line_eq (s : State) (v : Bool) : execStim (.line v) s = .next (s.sampleLine v) := by
  obtain ⟨cfg, count, life, pend, edgePrev, phase, ind, sval, sfail, ifail, trace, setup, script, tick⟩ := s
  cases v <;> cases edgePrev <;> rfl

/-- The eight opcodes. -/
theorem cmd_cases : ∀ c : BitVec 3,
    c = 0#3 ∨ c = 1#3 ∨ c = 2#3 ∨ c = 3#3 ∨ c = 4#3 ∨ c = 5#3 ∨ c = 6#3 ∨ c = 7#3 := by decide

/-- A HOST step is an `ARM`, a `DISARM`, or a command that only responds (R110). -/
theorem execStim_host_cases (s : State) (e : Bool) (cmd : BitVec 3) :
    (cmd = 1#3 ∧ execStim (.host e cmd) s = .next (s.arm.respond 0 false)) ∨
    (cmd = 2#3 ∧ execStim (.host e cmd) s = .next ((s.disarm e).respond 0 false)) ∨
    (cmd ≠ 1#3 ∧ cmd ≠ 2#3 ∧ ∃ data err, execStim (.host e cmd) s = .next (s.respond data err)) := by
  rcases cmd_cases cmd with h | h | h | h | h | h | h | h <;> subst h
  · exact .inr (.inr ⟨by decide, by decide, _, _, rfl⟩)
  · exact .inl ⟨rfl, rfl⟩
  · exact .inr (.inl ⟨rfl, rfl⟩)
  all_goals exact .inr (.inr ⟨by decide, by decide, _, _, rfl⟩)

end Sys2Proof.Machine
end

