-- ==== Sys2Proof/Laws/PerInstr.lean ====
section
/-! SUPPORT. Facts about every operation as syntax. Family `RowBits`: an operation's encoding has the bits of its row of the
opcode table, and the operation and the row have the same condition on the state. -/

namespace Sys2Proof.Laws.RowBits

open Sys2Proof Sys2Proof.Machine

/-- The row of the table with the operation's mnemonic has the bits of its encoding and its condition (R72). -/
def Statement (i : Instr) : Prop :=
  ∃ r ∈ opcodeRows, r.mnemonic = i.mnemonic ∧ encode i &&& r.mask = r.matchBits ∧ ∀ c, r.cond c = i.wellFormedIn c

/-- A row at a given position of the table proves the statement. -/
theorem of_row {i : Instr} (n : Fin 19) (hm : (opcodeRows.get n).mnemonic = i.mnemonic)
    (hb : encode i &&& (opcodeRows.get n).mask = (opcodeRows.get n).matchBits)
    (hc : ∀ c, (opcodeRows.get n).cond c = i.wellFormedIn c) : Statement i :=
  ⟨opcodeRows.get n, List.get_mem _ _, hm, hb, hc⟩

/-- The word of a SEQ step has `AGENT = 0` and bit 17 clear, whatever its draws. -/
theorem seq_bits (e : Bool) (d : BitVec 16) : stimWord 0#2 e d &&& 0xE0000#20 = 0x00000#20 := by
  apply BitVec.eq_of_getLsbD_eq
  intro i hi
  rw [BitVec.getLsbD_and, getLsbD_stimWord]
  have h : ∀ j : Fin 20, (0xE0000#20).getLsbD j = decide (17 ≤ j.val) := by decide
  have h2 := h ⟨i, hi⟩
  simp only at h2
  rw [h2]
  rcases (by omega : i < 16 ∨ i = 16 ∨ i = 17 ∨ i = 18 ∨ i = 19) with h | rfl | rfl | rfl | rfl
  · simp [show ¬ 17 ≤ i by omega]
  all_goals simp

theorem lineFall : Statement .lineFall := of_row 0 rfl (by decide) fun _ => rfl
theorem lineRise : Statement .lineRise := of_row 1 rfl (by decide) fun _ => rfl
theorem lineHold0 : Statement .lineHold0 := of_row 2 rfl (by decide) fun _ => rfl
theorem lineHold1 : Statement .lineHold1 := of_row 3 rfl (by decide) fun _ => rfl
theorem seqNone : Statement .seqNone := of_row 4 rfl (by decide) fun _ => rfl
theorem dispatch (e : Bool) : Statement (.dispatch e) :=
  of_row 5 rfl (seq_bits e 0) fun _ => (Bool.and_assoc _ _ _).symm
theorem hi (e : Bool) : Statement (.hi e) := of_row 6 rfl (seq_bits e 0) fun _ => rfl
theorem inc : Statement .inc := of_row 7 rfl (by decide) fun _ => rfl
theorem lo (e : Bool) : Statement (.lo e) := of_row 8 rfl (seq_bits e 0) fun _ => rfl
theorem smp (e : Bool) (d : Sample) : Statement (.smp e d) := of_row 9 rfl (seq_bits e d) fun _ => rfl
theorem rpt : Statement .rpt := of_row 10 rfl (by decide) fun _ => rfl
theorem nop : Statement .nop := of_row 11 rfl (by decide) fun _ => rfl
theorem arm : Statement .arm := of_row 12 rfl (by decide) fun _ => rfl
theorem disarm (e : Bool) : Statement (.disarm e) := of_row 13 rfl (by cases e <;> decide) fun _ => rfl
theorem rsv3 : Statement .rsv3 := of_row 14 rfl (by decide) fun _ => rfl
theorem rdstatus : Statement .rdstatus := of_row 15 rfl (by decide) fun _ => rfl
theorem rdcount : Statement .rdcount := of_row 16 rfl (by decide) fun _ => rfl
theorem rdlimit : Statement .rdlimit := of_row 17 rfl (by decide) fun _ => rfl
theorem rsv7 : Statement .rsv7 := of_row 18 rfl (by decide) fun _ => rfl

end Sys2Proof.Laws.RowBits
end

