-- ==== Sys2Proof/Tests/Slice0.lean ====
section
/-! SUPPORT. Tests of the model: ill-formed terms that the checks refuse, words written out from the encoding tables of
spec/30_encoding.md, single steps from spec/95_test_vectors.md, and, for every statement of Obligations.lean that has
hypotheses, a concrete state that meets them. The expected results come from the spec, each named by its vector or rule. -/

namespace Sys2Proof.Tests

open Sys2Proof.Machine

/-! ### Helpers -/

/-- The outcome is this next state. -/
def nextIs (o : Outcome) (t : State) : Bool :=
  match o with
  | .next u => decide (u = t)
  | .fault _ => false
  | .refused _ => false

/-- The outcome is this refusal. -/
def refusedIs (o : Outcome) (r : Refusal) : Bool :=
  match o with
  | .next _ => false
  | .fault _ => false
  | .refused q => decide (q = r)

/-- The outcome is this fault. -/
def faultIs (o : Outcome) (f : Fault) : Bool :=
  match o with
  | .next _ => false
  | .fault g => decide (g = f)
  | .refused _ => false

/-- The state after an operation, the state itself where it stops. -/
def after (i : Instr) (s : State) : State :=
  match exec i s with
  | .next t => t
  | .fault _ => s
  | .refused _ => s

/-- What a word decodes to, as an option. -/
def decoded (w : StimWord) (c : Ctx) : Option Instr :=
  match decode w c with
  | .ok i => some i
  | .error _ => none

/-- Why a word is invalid, as an option. -/
def invalidWhy (w : StimWord) : Option Reject :=
  match Stim.ofWord w with
  | .ok _ => none
  | .error why => some why

/-- The vectors' tuple `(LIFE, COUNT, PEND, EDGE_PREV, PHASE, IND, SVAL, SFAIL, IFAIL)` with a limit, `W = 32`, and an
empty trace. -/
def tuple (limit : Word) (life : Life) (count : Word) (pend edgePrev : Bool) (phase : Phase) (ind : Bool) (sval : Sample)
    (sfail ifail : Bool) : State :=
  { State.resetWith ⟨32, limit⟩ with
    count := count, life := life, pend := pend, edgePrev := edgePrev, phase := phase, ind := ind, sval := sval,
    sfail := sfail, ifail := ifail }

/-- One step of the machine on the word `w` from `s` gives `t` and appends `acts`. -/
def steps (s : State) (w : StimWord) (t : State) (acts : List Action) : Bool :=
  nextIs (step { s with script := [.word w] }) { t with trace := acts }

/-- An armed state of the vectors, idle, with the transients 0. -/
def idleArmed (count : Word) (pend edgePrev : Bool) : State :=
  tuple 3 .armed count pend edgePrev .idle false 0 false false

/-- An armed state of the vectors in a callback, with no edge pending. -/
def busyArmed (count : Word) (phase : Phase) (ind : Bool) : State :=
  tuple 3 .armed count false false phase ind 0 false false

/-! ### What the checks refuse -/

theorem test_config_reference_is_legal : Config.reference.wf = true := by decide
theorem test_config_smallest_is_legal : Config.wf ⟨1, 1⟩ = true ∧ Config.wf ⟨1, 0⟩ = true := by decide
theorem test_config_width_zero_refused : Config.wf ⟨0, 0⟩ = false := by decide
theorem test_config_width_33_refused : Config.wf ⟨33, 0⟩ = false := by decide
theorem test_config_limit_too_large_refused : Config.wf ⟨8, 256⟩ = false ∧ Config.wf ⟨8, 255⟩ = true := by decide

theorem test_line_rows_refused_at_the_other_level :
    Instr.lineFall.wellFormedIn ⟨.armed, false, false, .idle⟩ = false ∧
    Instr.lineHold1.wellFormedIn ⟨.armed, false, false, .idle⟩ = false ∧
    Instr.lineRise.wellFormedIn ⟨.armed, false, true, .idle⟩ = false ∧
    Instr.lineHold0.wellFormedIn ⟨.armed, false, true, .idle⟩ = false := by decide

theorem test_seqNone_refused_where_seq_is_enabled :
    Instr.seqNone.wellFormedIn ⟨.armed, true, false, .idle⟩ = false ∧
    Instr.seqNone.wellFormedIn ⟨.armed, false, false, .rpt⟩ = false := by decide

theorem test_dispatch_refused_unless_idle_pending_armed :
    (Instr.dispatch false).wellFormedIn ⟨.armed, true, false, .hi⟩ = false ∧
    (Instr.dispatch false).wellFormedIn ⟨.armed, false, false, .idle⟩ = false ∧
    (Instr.dispatch false).wellFormedIn ⟨.disarmed, true, false, .idle⟩ = false := by decide

theorem test_micro_ops_refused_at_another_phase :
    (Instr.hi false).wellFormedIn ⟨.armed, false, false, .inc⟩ = false ∧
    Instr.inc.wellFormedIn ⟨.armed, false, false, .hi⟩ = false ∧
    (Instr.lo false).wellFormedIn ⟨.armed, false, false, .smp⟩ = false ∧
    (Instr.smp false 0).wellFormedIn ⟨.armed, false, false, .lo⟩ = false ∧
    Instr.rpt.wellFormedIn ⟨.armed, false, false, .idle⟩ = false := by decide

/-- VI1 to VI5, and a canonical word of each agent with no reason. -/
theorem test_invalid_words :
    invalidWhy 0xC0000#20 = some .reservedAgent ∧ invalidWhy 0x20000#20 = some .bit17Set ∧
    invalidWhy 0x40002#20 = some .lineMustBeZero ∧ invalidWhy 0x80008#20 = some .hostMustBeZero ∧
    invalidWhy 0xA0001#20 = some .bit17Set ∧ invalidWhy 0x40001#20 = none ∧ invalidWhy 0x80007#20 = none ∧
    invalidWhy 0x1FFFF#20 = none := by decide

/-- U15: a script with an invalid word is refused as a whole, by position and reason, before its first step. -/
theorem test_script_refused_as_a_whole :
    refusedIs (step { State.reset with script := [.word 0x80001#20, .rst, .word 0x20000#20] })
      (.invalidStim 2 .bit17Set) = true := by decide

/-- U7: a row outside its condition has no step. -/
theorem test_dispatch_when_disarmed_has_no_step :
    faultIs (exec (.dispatch false) (tuple 3 .disarmed 2 true false .idle false 0 false false)) .noSuchStep = true := by
  decide

/-! ### Words written out from the encoding tables (R60, R61, R63, R64) -/

theorem test_decode_line :
    decoded 0b01_0_0_0000000000000000#20 ⟨.armed, false, true, .idle⟩ = some .lineFall ∧
    decoded 0b01_0_0_0000000000000001#20 ⟨.armed, false, false, .idle⟩ = some .lineRise ∧
    decoded 0b01_0_0_0000000000000000#20 ⟨.armed, false, false, .idle⟩ = some .lineHold0 ∧
    decoded 0b01_0_0_0000000000000001#20 ⟨.armed, false, true, .idle⟩ = some .lineHold1 := by decide

theorem test_decode_dispatch_and_none :
    decoded 0b00_0_0_0000000000000000#20 ⟨.armed, false, false, .idle⟩ = some .seqNone ∧
    decoded 0b00_0_0_0000000000000000#20 ⟨.unarmed, true, false, .idle⟩ = some .seqNone ∧
    decoded 0b00_0_1_0000000000000000#20 ⟨.armed, true, false, .idle⟩ = some (.dispatch true) := by decide

theorem test_decode_callback :
    decoded 0b00_0_1_0000000000000000#20 ⟨.armed, false, false, .hi⟩ = some (.hi true) ∧
    decoded 0b00_0_0_0000000000000000#20 ⟨.armed, false, false, .inc⟩ = some .inc ∧
    decoded 0b00_0_1_0000000000000000#20 ⟨.armed, false, false, .lo⟩ = some (.lo true) ∧
    decoded 0b00_0_0_1000000000000001#20 ⟨.armed, false, false, .smp⟩ = some (.smp false 0x8001#16) ∧
    decoded 0b00_0_1_1000000000000000#20 ⟨.armed, false, false, .smp⟩ = some (.smp true 0x8000#16) ∧
    decoded 0b00_0_0_0000000000000000#20 ⟨.armed, false, false, .rpt⟩ = some .rpt := by decide

theorem test_decode_host :
    decoded 0b10_0_0_0000000000000_000#20 resetCtx = some .nop ∧
    decoded 0b10_0_0_0000000000000_001#20 resetCtx = some .arm ∧
    decoded 0b10_0_0_0000000000000_010#20 resetCtx = some (.disarm false) ∧
    decoded 0b10_0_1_0000000000000_010#20 resetCtx = some (.disarm true) ∧
    decoded 0b10_0_0_0000000000000_011#20 resetCtx = some .rsv3 ∧
    decoded 0b10_0_0_0000000000000_100#20 resetCtx = some .rdstatus ∧
    decoded 0b10_0_0_0000000000000_101#20 resetCtx = some .rdcount ∧
    decoded 0b10_0_0_0000000000000_110#20 resetCtx = some .rdlimit ∧
    decoded 0b10_0_0_0000000000000_111#20 resetCtx = some .rsv7 := by decide

/-- The three valid though unusual words of spec/95_test_vectors.md. -/
theorem test_decode_ignored_bits :
    decoded 0x50001#20 ⟨.armed, false, false, .idle⟩ = some .lineRise ∧ decoded 0x90001#20 resetCtx = some .arm ∧
    decoded 0x0FFFF#20 ⟨.armed, false, false, .hi⟩ = some (.hi false) := by decide

/-- The words the tables give, from the operations. -/
theorem test_encode_words :
    encode .lineFall = 0x40000#20 ∧ encode .lineHold1 = 0x40001#20 ∧ encode (.dispatch true) = 0x10000#20 ∧
    encode .seqNone = 0x00000#20 ∧ encode (.smp true 0x8000) = 0x18000#20 ∧ encode (.disarm true) = 0x90002#20 ∧
    encode .rsv7 = 0x80007#20 := by decide

/-- The word the host asks about, read in the state right after reset. -/
theorem test_decodeTableWord :
    decodeTableWord 20 0x80001 = some .arm ∧ decodeTableWord 24 0x40001 = some .lineRise ∧
    decodeTableWord 24 0x00000 = some .seqNone ∧ decodeTableWord 24 0xC0000 = none ∧
    decodeTableWord 24 0x100000 = none := by decide

/-- VW1, VW6, VW7. -/
theorem test_report_words :
    rptWord 32 ⟨1, 0b00, 0x0101⟩ = 0x0000000040101#50 ∧ rptWord 32 ⟨4294967295, 0b00, 0x8000⟩ = 0x3FFFFFFFC8000#50 ∧
    rptWord 8 ⟨255, 0b01, 0x0000⟩ = 0x3FD0000#26 := by decide

/-! ### Single steps, LINE (vectors VL) -/

/-- VL1 -/
theorem test_fall_latched : steps (idleArmed 2 false true) 0x40000#20 (idleArmed 2 true false) [] = true := by decide

/-- VL13 -/
theorem test_fall_not_latched_when_disarmed :
    steps (tuple 3 .disarmed 2 false true .smp false 0 false false) 0x40000#20
      (tuple 3 .disarmed 2 false false .smp false 0 false false) [] = true := by decide

/-- VL2 -/
theorem test_rise_is_no_event : steps (idleArmed 2 false false) 0x40001#20 (idleArmed 2 false true) [] = true := by decide

/-- VL3 -/
theorem test_hold0 : steps (idleArmed 2 false false) 0x40000#20 (idleArmed 2 false false) [] = true := by decide

/-- VL4 -/
theorem test_hold1 : steps (idleArmed 2 false true) 0x40001#20 (idleArmed 2 false true) [] = true := by decide

/-! ### Single steps, SEQ (vectors VS) -/

/-- VS8 -/
theorem test_none_in_faulted :
    steps (tuple 3 .faulted 3 false false .idle false 0 false false) 0x10000#20
      (tuple 3 .faulted 3 false false .idle false 0 false false) [] = true := by decide

/-- VS4 -/
theorem test_dispatch_accepts_below_limit :
    steps (idleArmed 2 true false) 0x10000#20 (busyArmed 2 .hi false) [] = true := by decide

/-- VS3 -/
theorem test_dispatch_at_limit_with_dis_err :
    steps (idleArmed 3 true false) 0x10000#20 (tuple 3 .faulted 3 false false .idle false 0 false false) [.fault] = true := by
  decide

/-- VS12 -/
theorem test_hi_with_ind_err :
    steps (busyArmed 2 .hi false) 0x10000#20 (tuple 3 .armed 2 false false .inc true 0 false true) [.ind true] = true := by
  decide

/-- VS15 -/
theorem test_inc_ignores_its_draws :
    steps (busyArmed 2 .inc true) 0x1FFFF#20 (busyArmed 3 .lo true) [] = true := by decide

/-- VS17: W = 8, 254 becomes 255. -/
theorem test_inc_to_all_ones_of_8_bits :
    nextIs (exec .inc { State.resetWith ⟨8, 255⟩ with life := .armed, count := 254, phase := .inc, ind := true })
      { State.resetWith ⟨8, 255⟩ with life := .armed, count := 255, phase := .lo, ind := true } = true := by decide

/-- VS20 -/
theorem test_lo_keeps_ifail :
    steps (tuple 3 .armed 3 false false .lo true 0 false true) 0x00000#20
      (tuple 3 .armed 3 false false .smp false 0 false true) [.ind false] = true := by decide

/-- VS22 -/
theorem test_smp_takes_the_reading :
    steps (busyArmed 3 .smp false) 0x08000#20 (tuple 3 .armed 3 false false .rpt false 0x8000 false false)
      [.smpreq] = true := by decide

/-- VS25 -/
theorem test_smp_failure_ignores_the_data :
    steps (busyArmed 3 .smp false) 0x18000#20 (tuple 3 .armed 3 false false .rpt false 0 true false) [.smpreq] = true := by
  decide

/-- VS29 -/
theorem test_rpt_reports_ifail_in_bit_1 :
    steps (tuple 3 .armed 3 false false .rpt false 0x1234 false true) 0x00000#20 (idleArmed 3 false false)
      [.rpt ⟨3, 0b10, 0x1234⟩] = true := by decide

/-! ### Single steps, HOST (vectors VH) -/

/-- VH1 -/
theorem test_nop : steps (idleArmed 2 false true) 0x80000#20 (idleArmed 2 false true) [.rsp 0 false] = true := by decide

/-- VH2 -/
theorem test_arm_from_unarmed :
    steps (tuple 3 .unarmed 0 false true .idle false 0 false false) 0x80001#20 (idleArmed 0 false true)
      [.rsp 0 false] = true := by decide

/-- VH5 -/
theorem test_arm_does_not_rearm :
    steps (tuple 3 .disarmed 1 false false .idle false 0 false false) 0x80001#20
      (tuple 3 .disarmed 1 false false .idle false 0 false false) [.rsp 0 false] = true := by decide

/-- VH13 -/
theorem test_disarm_mid_callback :
    steps (tuple 3 .armed 2 true false .lo true 0 false false) 0x80002#20
      (tuple 3 .disarmed 2 false false .lo true 0 false false) [.disarmed, .rsp 0 false] = true := by decide

/-- VH10 -/
theorem test_disarm_in_faulted_reads_nothing :
    steps (tuple 3 .faulted 3 false false .idle false 0 false false) 0x90002#20
      (tuple 3 .faulted 3 false false .idle false 0 false false) [.rsp 0 false] = true := by decide

/-- VH28 -/
theorem test_rsv3 : steps (idleArmed 2 false true) 0x80003#20 (idleArmed 2 false true) [.rsp 0 true] = true := by decide

/-- VH15 -/
theorem test_rdstatus_mid_callback :
    steps (tuple 3 .armed 3 true false .lo true 0 false false) 0x80004#20
      (tuple 3 .armed 3 true false .lo true 0 false false) [.rsp 0x0000027D false] = true := by decide

/-- VH23 -/
theorem test_rdstatus_faulted :
    steps (tuple 3 .faulted 3 false true .idle false 0 false false) 0x80004#20
      (tuple 3 .faulted 3 false true .idle false 0 false false) [.rsp 0x00000303 false] = true := by decide

/-- VH25 -/
theorem test_rdcount_all_32_bits :
    steps (tuple 4294967295 .armed 4294967295 false false .idle false 0 false false) 0x80005#20
      (tuple 4294967295 .armed 4294967295 false false .idle false 0 false false) [.rsp 0xFFFFFFFF false] = true := by decide

/-- VH27 -/
theorem test_rdlimit_1000 :
    steps (tuple 1000 .armed 17 false false .idle false 0 false false) 0x80006#20
      (tuple 1000 .armed 17 false false .idle false 0 false false) [.rsp 0x000003E8 false] = true := by decide

/-- VH29 -/
theorem test_rsv7_while_busy :
    steps (tuple 3 .armed 2 true false .smp false 0 false false) 0x80007#20
      (tuple 3 .armed 2 true false .smp false 0 false false) [.rsp 0 true] = true := by decide

/-! ### Reset, ports, scripts -/

/-- R160, U17: reset in the middle of a callback. -/
theorem test_reset_mid_callback :
    nextIs (step { busyArmed 3 .lo true with trace := [.ind true], script := [.rst] }) (State.resetWith ⟨32, 3⟩) = true := by
  decide

/-- R162, R173: the host's configuration of a collaborator before `ARM` is recorded and is nothing to the block. -/
theorem test_setup_before_arm :
    nextIs (step { State.reset with script := [.setup .edgeSignal] })
      { State.reset with setup := ⟨false, false, true⟩ } = true := by decide

/-- R162: an item performed after arming is too late for the contract. -/
theorem test_setup_after_arm :
    nextIs (step { idleArmed 0 false false with script := [.setup .sampleSource] }) (idleArmed 0 false false) = true := by
  decide

/-- R26: the ports of an `SMP` step and of an `RDLIMIT` step. -/
theorem test_ports :
    OutPorts.after [.smpreq] (busyArmed 3 .rpt false) = ⟨false, true, false, true, true, none, none⟩ ∧
    OutPorts.after [.rsp 3 false] (idleArmed 2 false false) = ⟨false, true, false, false, false, none, some (3, false)⟩ := by
  decide

/-- R71: the expansions of `INIT`, of `EDGE`, of `RUN` with nothing enabled, and of `DISARM!`. -/
theorem test_script_expansions :
    ScriptOp.init.inputs State.reset = [.rst, .word 0x80001#20] ∧
    ScriptOp.edge.inputs State.reset = [.word 0x40001#20, .word 0x40000#20] ∧
    ScriptOp.run.inputs State.reset = [] ∧ ScriptOp.disarmErr.inputs State.reset = [.word 0x90002#20] := by decide

/-- R71: `RUN:hhhh` gives its value to the step taken at SMP, here the tail of a callback. -/
theorem test_run_sample_expansion :
    (ScriptOp.runSample 0x0042).inputs (busyArmed 3 .lo true) =
      [.word 0x00000#20, .word 0x00042#20, .word 0x00000#20] := by decide

/-- R71, R98: `onEdgeEvent()` at the limit is its `DISPATCH` alone. -/
theorem test_onEdgeEvent_at_limit :
    (ScriptOp.onEdgeEvent true false false false 7).inputs (idleArmed 3 true false) = [.word 0x10000#20] := by decide

/-! ### Witnesses: states and operands that meet the hypotheses of the statements -/

/-- A state in which an operation is the one its word selects. -/
def home : Instr → State
  | .lineFall => idleArmed 2 false true
  | .lineRise => idleArmed 2 false false
  | .lineHold0 => idleArmed 2 false false
  | .lineHold1 => idleArmed 2 false true
  | .seqNone => idleArmed 2 false false
  | .dispatch _ => idleArmed 2 true false
  | .hi _ => busyArmed 2 .hi false
  | .inc => busyArmed 2 .inc true
  | .lo _ => busyArmed 3 .lo true
  | .smp _ _ => busyArmed 3 .smp false
  | .rpt => busyArmed 3 .rpt false
  | .nop => idleArmed 2 false false
  | .arm => State.reset
  | .disarm _ => idleArmed 2 true false
  | .rsv3 => idleArmed 2 false false
  | .rdstatus => idleArmed 2 false false
  | .rdcount => idleArmed 2 false false
  | .rdlimit => idleArmed 2 false false
  | .rsv7 => idleArmed 2 false false

/-- For `EncodedOperationDecodesToItself` and `RowHasAStepExactlyUnderItsCondition`, every constructor. -/
theorem witness_every_operation_is_selected (i : Instr) : i.wellFormedIn (home i).ctx = true := by cases i <;> rfl

/-- For `PhaseMovesOnlyAsListed`, `RegistersAreWrittenOnlyByTheirOwners`, `LifeMovesOnlyForward` and
`StepPortsShowTheStep`, every constructor. -/
theorem witness_every_operation_completes (i : Instr) : ∃ t, exec i (home i) = .next t := by
  cases i <;> exact ⟨_, rfl⟩

/-- For `RowHasAStepExactlyUnderItsCondition`, second clause. -/
theorem witness_row_outside_its_condition : Instr.rpt.wellFormedIn State.reset.ctx = false := by decide

/-- For `ValidWordSelectsExactlyOneRow`: a valid and an invalid word. -/
theorem witness_decode_both_ways :
    decode 0x80003#20 resetCtx = .ok .rsv3 ∧ decode 0x80010#20 resetCtx = .error .hostMustBeZero := ⟨rfl, rfl⟩

/-- For `IgnoredBitsDoNotAffectTheStep`: a state for each clause. -/
theorem witness_ignored_bits :
    (0b001#3 : BitVec 3) ≠ 0b010#3 ∧ State.reset.life ≠ .armed ∧ State.reset.phase ≠ .smp ∧
    (busyArmed 3 .smp false).phase = .smp ∧ (busyArmed 2 .inc true).phase = .inc ∧
    (busyArmed 3 .rpt false).phase = .rpt ∧ State.reset.seqEnabled = false ∧
    ((idleArmed 2 true false).phase = .idle ∧ (idleArmed 2 true false).count < (idleArmed 2 true false).limit) := by decide

/-- For the LINE statements: both levels, armed and idle, armed and busy, not armed. -/
theorem witness_line_states :
    (idleArmed 3 false true).edgePrev = true ∧ (idleArmed 3 false true).life = .armed ∧
    (idleArmed 3 false true).phase = .idle ∧ (tuple 3 .faulted 3 false true .idle false 0 false false).life ≠ .armed ∧
    (tuple 3 .faulted 3 false true .idle false 0 false false).edgePrev = true ∧ State.reset.edgePrev = false := by decide

/-- For `SeqStimulusIsANoOpWhenNotEnabled`, both clauses. -/
theorem witness_seq_enabled_and_not :
    State.reset.seqEnabled = false ∧
    decoded (stimWord 0#2 true 0) (idleArmed 3 true false).ctx = some (.dispatch true) := by decide

/-- For `DispatchChecksTheLimit`, `AcceptedEventPlaysTheWholeCallback` and `DisarmingEventIsDispatchAlone`: the last count
that is accepted and the first that is not. -/
theorem witness_dispatch_below_and_at_the_limit :
    (idleArmed 2 true false).phase = .idle ∧ (idleArmed 2 true false).pend = true ∧
    (idleArmed 2 true false).life = .armed ∧ (idleArmed 2 true false).count < (idleArmed 2 true false).limit ∧
    (idleArmed 2 true false).cfg.wf = true ∧ (idleArmed 2 true false).ind = false ∧
    (idleArmed 2 true false).sval = 0 ∧ (idleArmed 2 true false).sfail = false ∧
    (idleArmed 2 true false).ifail = false ∧ (idleArmed 3 true false).phase = .idle ∧
    (idleArmed 3 true false).pend = true ∧ (idleArmed 3 true false).life = .armed ∧
    (idleArmed 3 true false).limit ≤ (idleArmed 3 true false).count := by decide

/-- For `DisarmPrimitiveActsOnce`, `DisarmCommand` and `ArmOnlyFromUnarmed`: a state of each life. -/
theorem witness_lives :
    State.reset.life = .unarmed ∧ (idleArmed 0 false false).life = .armed ∧ (idleArmed 0 false false).life ≠ .unarmed ∧
    (tuple 3 .disarmed 3 false false .idle false 0 false false).life ≠ .armed ∧
    (tuple 3 .faulted 3 false false .idle false 0 false false).life ≠ .unarmed := by decide

/-- For `HiStartsThePulse`, `LoEndsThePulse`, `SmpTakesOneReading`, `RptReportsAndReturns`,
`FailuresDoNotAlterTheCourse` and `CallbackCommutesWithLineAndArming`. -/
theorem witness_phases :
    (busyArmed 2 .hi false).phase = .hi ∧ (busyArmed 3 .lo true).phase = .lo ∧ (busyArmed 3 .smp false).phase = .smp ∧
    (tuple 3 .armed 3 true false .rpt false 0x42 false false).phase = .rpt ∧
    (tuple 3 .armed 3 true false .rpt false 0x42 false false).pend = true ∧
    (tuple 3 .armed 3 true false .rpt false 0x42 false false).life = .armed ∧
    (busyArmed 2 .hi false).phase ≠ .idle := by decide

/-- For `IncAddsOneToCount`: the last count that can be increased, at the default `W` and at `W = 1`. -/
theorem witness_inc_at_the_top :
    (tuple 4294967295 .armed 4294967294 false false .inc true 0 false false).phase = .inc ∧
    (tuple 4294967295 .armed 4294967294 false false .inc true 0 false false).cfg.wf = true ∧
    (tuple 4294967295 .armed 4294967294 false false .inc true 0 false false).count.toNat + 1 < 2 ^ 32 ∧
    Config.wf ⟨1, 1⟩ = true ∧ (0#32).toNat + 1 < 2 ^ 1 := by decide

/-- For `CountEqualsMinOfEventsAndLimit`: schedules with one event, accepted at limit 1 and disarming at limit 0. -/
theorem witness_counting_law :
    Config.wf ⟨1, 1⟩ = true ∧ Config.wf ⟨32, 0⟩ = true ∧
    (∀ st ∈ [Stim.line true, Stim.line false, Stim.seq false 0], st.isDisarm = false) ∧
    nextIs (runStims [.line true, .line false, .seq false 0] { State.resetWith ⟨32, 0⟩ with life := .armed })
      { State.resetWith ⟨32, 0⟩ with life := .disarmed, trace := [.disarmed] } = true ∧
    dispatches [.line true, .line false, .seq false 0] { State.resetWith ⟨32, 0⟩ with life := .armed } = 1 := by decide

/-- For `RdcountReadsCount` and `RdlimitReadsLimit`: a count at a limit of all ones of `W` bits. -/
theorem witness_reads :
    Config.wf ⟨8, 255⟩ = true ∧ (255#32).toNat % 2 ^ 8 = 255 ∧ (255#32 ≤ 255#32) := by decide

/-- For `HostCommandAlwaysResponds`: an opcode for each clause on `cmd`. -/
theorem witness_opcodes :
    (0b100#3 : BitVec 3) ≠ 0b010#3 ∧ (0b100#3 : BitVec 3) ≠ 0b001#3 ∧ (0b000#3 : BitVec 3) ≠ 0b100#3 ∧
    (0b011#3 = 0b011#3 ∨ 0b011#3 = 0b111#3) := by decide

/-- For `RegistersAreWrittenOnlyByTheirOwners`: an operation that changes each register. -/
theorem witness_each_register_changes :
    (after .inc (home .inc)).count ≠ (home .inc).count ∧ (after .arm (home .arm)).life ≠ (home .arm).life ∧
    (after .lineFall (home .lineFall)).pend ≠ (home .lineFall).pend ∧
    (after .lineRise (home .lineRise)).edgePrev ≠ (home .lineRise).edgePrev ∧
    (after (.hi true) (home (.hi true))).phase ≠ (home (.hi true)).phase ∧
    (after (.hi true) (home (.hi true))).ind ≠ (home (.hi true)).ind ∧
    (after (.hi true) (home (.hi true))).ifail ≠ (home (.hi true)).ifail ∧
    (after (.smp false 5) (home (.smp false 5))).sval ≠ (home (.smp false 5)).sval ∧
    (after (.smp true 5) (home (.smp true 5))).sfail ≠ (home (.smp true 5)).sfail := by decide

/-- For `LifeMovesOnlyForward`: each move, and a raised `fault`. -/
theorem witness_each_life_move :
    (after .arm State.reset).life = .armed ∧ (after (.dispatch false) (idleArmed 3 true false)).life = .disarmed ∧
    (after (.disarm true) (idleArmed 2 true false)).life = .faulted ∧
    (after (.disarm true) (idleArmed 2 true false)).faultOut = true := by decide

/-! ### Witnesses for the invariant: states a run reaches, not the reset state -/

/-- Armed with limit 3, the first event reported, the second at its `SMP`. -/
def midCallback : State :=
  { busyArmed 2 .smp false with
    trace := [.rsp 0 false, .ind true, .ind false, .smpreq, .rpt ⟨1, 0b00, 7⟩, .ind true, .ind false] }

/-- The same event at its `RPT`, with both failures. -/
def failedEvent : State :=
  { midCallback with phase := .rpt, sfail := true, ifail := true, trace := midCallback.trace ++ [.smpreq] }

/-- Disarmed by the limit, limit 0. -/
def ended : State :=
  { tuple 0 .disarmed 0 false false .idle false 0 false false with trace := [.rsp 0 false, .disarmed] }

/-- Armed and idle with a latched edge. -/
def latched : State := { idleArmed 0 true false with trace := [.rsp 0 false] }

/-- For `StepKeepsTheInvariant`, `CountNeverDecreases`, `SampleFollowsTheLowTransition`, `ReportFields` and
`FairRunFinishesEveryCallback`. -/
theorem witness_invariant :
    Inv midCallback ∧ midCallback.phase = .smp ∧ Inv failedEvent ∧ failedEvent.phase = .rpt ∧ Inv ended ∧
    ended.life.over = true ∧ Inv latched :=
  ⟨by decide, rfl, by decide, rfl, by decide, rfl, by decide⟩

/-- For `ReportFields`: reports with `fail[0]` set and clear. -/
theorem witness_report_fail_bit :
    failedEvent.reportTuple.fail.getLsbD 0 = true ∧ (busyArmed 3 .rpt false).reportTuple.fail.getLsbD 0 = false := by decide

/-- The invariant rules out what no run reaches: a count above the limit, an edge pending while disarmed, an indicator
high when idle, a second report before a second pulse, `value` not 0 after a failed read. -/
theorem test_invariant_refuses :
    ¬ Inv (idleArmed 4 false false) ∧ ¬ Inv { ended with pend := true } ∧ ¬ Inv { latched with ind := true } ∧
    ¬ Inv { latched with trace := [.rpt ⟨1, 0, 0⟩] } ∧ ¬ Inv { failedEvent with sval := 1 } :=
  ⟨by decide, by decide, by decide, by decide, by decide⟩

/-- For `StepKeepsTheInvariant`: a step from such a state that completes, by a word and by a reset. -/
theorem witness_step_from_mid_callback :
    (∃ t, step { midCallback with script := [.word 0x10000#20] } = .next t) ∧
    (∃ t, step { midCallback with script := [.rst, .word 0x80001#20] } = .next t) ∧
    Inv { midCallback with script := [.word 0x10000#20] } := ⟨⟨_, rfl⟩, ⟨_, rfl⟩, by decide⟩

/-- For `DisarmDoesNotCancelACallback`. -/
theorem witness_disarm_after_dispatch :
    (busyArmed 2 .hi false).cfg.wf = true ∧ (busyArmed 2 .hi false).phase = .hi ∧ (busyArmed 2 .hi false).life = .armed ∧
    (busyArmed 2 .hi false).count < (busyArmed 2 .hi false).limit ∧ (busyArmed 2 .hi false).sfail = false ∧
    (busyArmed 2 .hi false).ifail = false := by decide

/-- For `TiedEdgeAndDisarmIsNeverDelivered` and `TieOrderDecidesWhetherAnEdgeIsLatched`: each tie. -/
theorem witness_ties :
    (idleArmed 3 true true).edgePrev = true ∧ (idleArmed 3 true true).life = .armed ∧
    (idleArmed 3 true true).phase = .idle ∧ (idleArmed 3 true true).pend = true ∧
    (idleArmed 3 true true).limit ≤ (idleArmed 3 true true).count ∧
    (idleArmed 2 true true).pend = true ∧ (idleArmed 2 true true).edgePrev = true ∧
    (idleArmed 2 true true).count < (idleArmed 2 true true).limit ∧
    (tuple 3 .unarmed 0 false true .idle false 0 false false).edgePrev = true ∧
    (tuple 3 .unarmed 0 false true .idle false 0 false false).life = .unarmed ∧
    (tuple 3 .unarmed 0 false true .idle false 0 false false).pend = false := by decide

/-- For `ResetValues` and `InvariantHoldsAtReset`: legal parameters with limit 0 and with a limit above 0. -/
theorem witness_parameters : Config.wf ⟨1, 0⟩ = true ∧ Config.wf ⟨32, 4294967295⟩ = true := by decide

/-- For `ResetAbandonsEverything`: a reset listed in the middle of a callback. -/
theorem witness_reset_listed :
    ({ midCallback with script := [.rst, .word 0x80001#20] } : State).script = [.rst, .word 0x80001#20] ∧
    scriptValid [.word 0x80001#20] = true := by decide

/-- For `TerminalStateStaysTerminal`. -/
theorem witness_terminal : ended.terminal = true ∧ ended.endedNormally = true ∧ ended.endedInFault = false := by decide

/-- For `ReportWordPacking`: the largest index of the widest and of the narrowest report. -/
theorem witness_report_widths : (32 ≤ 32 ∧ (4294967295#32).toNat < 2 ^ 32) ∧ (1 ≤ 32 ∧ (1#32).toNat < 2 ^ 1) := by decide

/-- For `EnabledSeqStepStaysEnabled`: enabled idle and enabled busy, and a step of each other agent. -/
theorem witness_enabled :
    latched.seqEnabled = true ∧ midCallback.seqEnabled = true ∧ (Stim.line false).isSeq = false ∧
    (Stim.host false 0b010#3).isSeq = false ∧ (Stim.host false 0b010#3).isDisarm = true := by decide

/-- For `IndicatorIsLoweredWithinTwoSeqSteps`: both phases, with steps of the other agents between. -/
theorem witness_indicator_raised :
    (busyArmed 2 .inc true).ind = true ∧ (busyArmed 2 .inc true).phase = .inc ∧
    seqSteps [.line true, .seq false 0, .host true 0b010#3, .seq true 0] = 2 ∧
    (busyArmed 3 .lo true).ind = true ∧ (busyArmed 3 .lo true).phase = .lo ∧ seqSteps [.line true, .seq false 0] = 1 := by
  decide

/-- For `FairRunFinishesEveryCallback`: a schedule of SEQ steps alone is weakly fair from any state, here from one with an
edge latched. -/
theorem witness_fair_schedule :
    Inv latched ∧ WeaklyFair (fun _ => .seq false 0) latched ∧ (stateAt (fun _ => .seq false 0) latched 0).pend = true :=
  ⟨by decide, fun n _ => ⟨n, Nat.le_refl n, rfl⟩, rfl⟩

/-- The state `midCallback` in a run whose host performed the initialization contract. -/
def contracted : State := { midCallback with setup := Setup.complete }

/-- For `InitContractIsKeptAndChangesNoStep`: the named premise and the invariant together, a step that completes, by a word
and by a reset, and a state of a run in which the host armed early. -/
theorem witness_init_contract :
    InitContractPerformed contracted ∧ Inv contracted ∧ contracted.life ≠ .unarmed ∧
    (∃ t, step { contracted with script := [.word 0x01234#20] } = .next t) ∧
    (∃ t, step { contracted with script := [.rst] } = .next t) ∧
    midCallback.life ≠ .unarmed ∧ ¬ InitContractPerformed midCallback :=
  ⟨by decide, by decide, by decide, ⟨_, rfl⟩, ⟨_, rfl⟩, by decide, by decide⟩

/-- For `InitContractThenArmIsArmedZero`: a list with every item, out of order and repeated, and one without the last. -/
theorem witness_setup_lists :
    (∀ item ∈ [SetupItem.sampleSource, .indicatorOutput, .edgeSignal],
      item ∈ [SetupItem.edgeSignal, .sampleSource, .edgeSignal, .indicatorOutput]) ∧
    SetupItem.edgeSignal ∉ [SetupItem.sampleSource, .indicatorOutput] := by decide

/-- For `StepRunsTheDecodedInstruction`: a listed word, a placed word, a word read after reset, and an empty list. -/
theorem witness_step_runs :
    ({ midCallback with script := [.word 0x01234#20, .rst] } : State).script = [.word 0x01234#20, .rst] ∧
    scriptValid [Input.rst] = true ∧ decode 0x01234#20 midCallback.ctx = .ok (.smp false 0x1234) ∧
    0x01234 < 2 ^ 20 ∧ decodeTableWord 24 0x80001 = some .arm ∧ midCallback.script = [] :=
  ⟨rfl, rfl, rfl, by decide, rfl, rfl⟩

/-- For `StepCompletesOnEveryValidScript`: a valid and an invalid list. -/
theorem witness_scripts :
    scriptValid [.word 0x80001#20, .rst] = true ∧ scriptValid [.word 0x80001#20, .word 0xC0000#20] = false := by decide

end Sys2Proof.Tests
end

section
/-! Proofs of the scope family (spec/00_scope.md): the parameters of the block and the reset state that takes them. -/

namespace Sys2Proof

open Machine

/-- The check on a configuration says exactly the two ranges of R5. -/
theorem Config.wf_iff (c : Config) :
    c.wf = true ↔ (1 ≤ c.width ∧ c.width ≤ 32) ∧ c.eventLimit.toNat < 2 ^ c.width := by
  simp only [Config.wf, Bool.and_eq_true, decide_eq_true_eq]

/-- R5: the default `W` and the reference `EVENT_LIMIT` lie in their ranges. -/
theorem Config.reference_wf : Config.reference.wf = true :=
  (Config.wf_iff _).mpr (by decide)

/-- A reset state holds the parameters it was built from (R5: none changes after reset). -/
@[simp] theorem Machine.State.resetWith_cfg (c : Config) : (State.resetWith c).cfg = c := rfl

/-- Settles O42: the reset state is built from `Config.reference`, and the parameters it holds are those. -/
theorem resetUsesTheDefaultParameters : Obligations.ResetUsesTheDefaultParameters := by
  have hreset : State.reset = State.resetWith ⟨32, 1000#32⟩ := rfl
  have hcfg : State.reset.cfg = Config.reference := State.resetWith_cfg Config.reference
  exact ⟨hreset, hcfg ▸ Config.reference_wf⟩

end Sys2Proof
end

section
/-! SUPPORT. What an operation does, once for all 19: its effect on the state and the actions it emits; that it completes
exactly under its `when` condition, with that effect; and what a step of the machine can be. -/

namespace Sys2Proof

open Machine

/-- What an operation does to the state where its `when` condition holds (R72). -/
def Instr.effect (i : Instr) (s : State) : State :=
  match i with
  | .lineFall | .lineHold0 => s.sampleLine false
  | .lineRise | .lineHold1 => s.sampleLine true
  | .seqNone => s
  | .dispatch e => s.takeEvent e
  | .hi e => { s.indWrite true e with phase := .inc }
  | .inc => { s with count := incr s.cfg.width s.count, phase := .lo }
  | .lo e => { s.indWrite false e with phase := .smp }
  | .smp e d => { s.sampleRead e d with phase := .rpt }
  | .rpt => (s.report s.reportTuple).returnFromEvent
  | .nop => s.respond 0 false
  | .arm => s.arm.respond 0 false
  | .disarm e => (s.disarm e).respond 0 false
  | .rsv3 => s.respond 0 true
  | .rdstatus => s.respondRead 0#2
  | .rdcount => s.respondRead 1#2
  | .rdlimit => s.respondRead 2#2
  | .rsv7 => s.respondRead 3#2

/-- The actions an operation emits, in order (R9). -/
def Instr.emits (i : Instr) (s : State) : List Action :=
  match i with
  | .lineFall | .lineRise | .lineHold0 | .lineHold1 | .seqNone | .inc => []
  | .dispatch e => if s.atLimit = true ∧ s.life = .armed then [if e then .fault else .disarmed] else []
  | .hi _ => [.ind true]
  | .lo _ => [.ind false]
  | .smp _ _ => [.smpreq]
  | .rpt => [.rpt s.reportTuple]
  | .nop | .arm => [.rsp 0 false]
  | .disarm e => (if s.life = .armed then [if e then .fault else .disarmed] else []) ++ [.rsp 0 false]
  | .rsv3 => [.rsp 0 true]
  | .rdstatus => [.rsp s.status false]
  | .rdcount => [.rsp (zext32 s.cfg.width s.count) false]
  | .rdlimit => [.rsp (zext32 s.cfg.width s.limit) false]
  | .rsv7 => [.rsp 0 true]

/-- An operation appends its actions to the trace. -/
theorem Instr.effect_trace (i : Instr) (s : State) : (i.effect s).trace = s.trace ++ i.emits s := by
  cases i <;> simp [Instr.effect, Instr.emits]

/-- What the step shows as emitted is what the operation emits. -/
theorem Instr.emitted_effect (i : Instr) (s : State) : emitted s (i.effect s) = i.emits s := by
  rw [emitted, i.effect_trace, List.drop_left]

namespace Machine

/-- The meaning of every operation is its effect under its condition (U7, C11). -/
theorem exec_eq_whenSelected (i : Instr) (s : State) : exec i s = whenSelected i s (i.effect s) := by
  cases i <;> rfl

/-- An operation answers a next state exactly where its condition holds, and that state is its effect. -/
theorem exec_next_iff (i : Instr) (s t : State) :
    exec i s = .next t ↔ i.wellFormedIn s.ctx = true ∧ i.effect s = t := by
  rw [exec_eq_whenSelected, whenSelected_next_iff]

/-- A step of an agent always completes, with the effect of the operation it selects (R8, R72). -/
theorem execStim_eq (st : Stim) (s : State) : execStim st s = .next ((select st s.ctx).effect s) :=
  (exec_next_iff _ _ _).mpr ⟨select_wellFormedIn st s.ctx, rfl⟩

/-- A listed input that answers a next state is an operation in a state where its condition holds, a reset, or the
configuration of a collaborator. -/
theorem execInput_next {inp : Input} {s t : State} (h : execInput inp s = .next t) :
    (∃ i : Instr, exec i s = .next t) ∨ t = s.applyReset ∨ ∃ item, t = s.configure item := by
  cases inp with
  | word w =>
    cases hd : decode w s.ctx with
    | ok i => exact .inl ⟨i, by simpa [execInput, hd] using h⟩
    | error why => simp [execInput, hd] at h
  | rst => exact .inr (.inl (Host.Outcome.next.inj h).symm)
  | setup item => exact .inr (.inr ⟨item, (Host.Outcome.next.inj h).symm⟩)

/-- A free move that answers a next state is one of the same three. -/
theorem execMove_next {m : Move} {s t : State} (h : execMove m s = .next t) :
    (∃ i : Instr, exec i s = .next t) ∨ t = s.applyReset ∨ ∃ item, t = s.configure item := by
  cases m with
  | stim st => exact .inl ⟨_, h⟩
  | rst => exact .inr (.inl (Host.Outcome.next.inj h).symm)
  | setup item => exact .inr (.inr ⟨item, (Host.Outcome.next.inj h).symm⟩)

/-- What the environment did in a step that answers a next state. The state `u` it acts on differs from `s` only in the
model's own list of inputs and counter of free moves (log 1, 2). -/
theorem step_next {s t : State} (h : step s = .next t) :
    ∃ u : State, u = { s with script := u.script, tick := u.tick } ∧
      ((∃ i : Instr, exec i u = .next t) ∨ t = u.applyReset ∨ ∃ item, t = u.configure item) := by
  rcases step_cases s with ⟨-, hstep⟩ | ⟨k, why, -, hstep⟩ | ⟨inp, rest, -, -, hstep⟩ <;> rw [hstep] at h
  · exact ⟨{ s with tick := s.tick + 1 }, rfl, execMove_next h⟩
  · cases h
  · exact ⟨{ s with script := rest }, rfl, execInput_next h⟩

end Machine

end Sys2Proof
end

section
/-! SUPPORT. The invariant of R23: its form without the parts that follow from the others, and, for each shared operation,
that it is kept. -/

namespace Sys2Proof.Machine

/-- SEQ is enabled in IDLE only where the trigger is armed (R90), so V2 is its first half. -/
theorem invPendOnlyArmed_iff (s : State) : InvPendOnlyArmed s ↔ (s.life ≠ .armed → s.pend = false) := by
  constructor
  · exact fun h hl => (h hl).1
  · intro h hl
    refine ⟨h hl, fun hp => ?_⟩
    simp [← Bool.not_eq_true, State.seqEnabled_iff, hp, hl]

/-- V8 holds of every state: the reserved codes cannot be written. -/
theorem invPhaseCode (s : State) : InvPhaseCode s := by
  unfold InvPhaseCode
  cases s.phase <;> decide

/-- V3 and V10 with the number `n` of reports named. -/
theorem invTraceIsBlocks_iff (s : State) :
    InvTraceIsBlocks s ↔
      ∃ n, scanTrace s.trace = some (s.phase.blockPos, n) ∧ n + s.phase.unreported = s.count.toNat := by
  unfold InvTraceIsBlocks
  cases scanTrace s.trace with
  | none => simp
  | some p => obtain ⟨pos, n⟩ := p; simp [and_assoc]

/-- The invariant, without V8 and the second half of V2. -/
theorem inv_iff (s : State) :
    Inv s ↔ s.cfg.wf = true ∧ s.count ≤ s.limit ∧ (s.life ≠ .armed → s.pend = false) ∧
      (∃ n, scanTrace s.trace = some (s.phase.blockPos, n) ∧ n + s.phase.unreported = s.count.toNat) ∧
      InvOneEndAction s ∧ InvIndInsidePulse s ∧ InvIdleIsClean s ∧ InvUnarmedIsFresh s ∧ InvAcceptedBelowLimit s ∧
      InvFailedReadIsZero s := by
  simp only [Inv, invPendOnlyArmed_iff, invTraceIsBlocks_iff, invPhaseCode, true_and]

/-- Actions that are not a callback's leave the recogniser of V3 where it is. -/
theorem scanAction_of_not_ofCallback (p : Option (BlockPos × Nat)) {a : Action} (h : a.ofCallback = false) :
    scanAction p a = p := by
  cases a with
  | rsp | disarmed | fault => rcases p with _ | ⟨_ | _ | _ | _, n⟩ <;> rfl
  | ind | smpreq | rpt => cases h

/-- An action other than `DISARMED` and `FAULT` keeps V3's second part where `LIFE` is kept. -/
theorem invOneEndAction_of_append {s t : State} {a : Action} (h : InvOneEndAction s) (ha : a.endsSampling = false)
    (htrace : t.trace = s.trace ++ [a]) (hlife : t.life = s.life) : InvOneEndAction t := by
  simp only [InvOneEndAction, htrace, hlife, List.filter_append, List.filter_singleton, ha]
  simpa using h

/-- A callback in progress shows that the trigger was armed, so a step of it keeps V6 where it keeps `LIFE`. -/
theorem invUnarmedIsFresh_of_busy {s t : State} (h : InvUnarmedIsFresh s) (hp : s.phase ≠ .idle)
    (hlife : t.life = s.life) : InvUnarmedIsFresh t :=
  fun hl => absurd (h (hlife ▸ hl)).2.2 hp

/-- In a legal configuration an event accepted below the limit is counted without wrapping (V9, R100). -/
theorem incr_eq_of_inv {s : State} (h : Inv s) (hp : s.phase = .inc) :
    (incr s.cfg.width s.count).toNat = s.count.toNat + 1 ∧ s.count.toNat + 1 ≤ s.limit.toNat := by
  obtain ⟨hwf, -, -, -, -, -, -, -, hbelow, -⟩ := (inv_iff s).mp h
  obtain ⟨-, -, hW, hL⟩ := Config.wf_spec s.cfg hwf
  have hlt : s.count.toNat < s.cfg.eventLimit.toNat := hbelow (.inr hp)
  exact ⟨incr_toNat _ _ hW (by omega), hlt⟩

/-- The invariant does not read the list of inputs, the counter of free moves, or the record of the contract. -/
theorem inv_of_own_fields {s : State} (h : Inv s) (u : Setup) (inputs : List Input) (n : Nat) :
    Inv { s with setup := u, script := inputs, tick := n } := h

/-- R23, R27: the reset state of legal parameters meets the invariant. -/
theorem inv_resetWith {c : Config} (h : c.wf = true) : Inv (State.resetWith c) :=
  (inv_iff _).mpr ⟨h, Nat.zero_le _, fun _ => rfl, ⟨0, rfl, rfl⟩, rfl, ⟨nofun, nofun⟩, fun _ => ⟨rfl, rfl, rfl, rfl⟩,
    fun _ => ⟨rfl, rfl, rfl⟩, nofun, nofun⟩

/-- A LINE step keeps the invariant: it latches an edge only while ARMED (R80). -/
theorem inv_sampleLine {s : State} (h : Inv s) (v : Bool) : Inv (s.sampleLine v) := by
  obtain ⟨hwf, hlim, hpend, hblocks, hend, hind, hidle, hfresh, hbelow, hzero⟩ := (inv_iff s).mp h
  refine (inv_iff _).mpr ⟨hwf, hlim, fun hl => ?_, hblocks, hend, hind, hidle, fun hl => ?_, hbelow, hzero⟩
  · have hl' : s.life ≠ .armed := hl
    simp [hl', hpend hl']
  · have hl' : s.life = .unarmed := hl
    obtain ⟨hcount, hpend', hphase⟩ := hfresh hl'
    exact ⟨hcount, by simp [hpend', hl'], hphase⟩

/-- A response keeps the invariant: it is no action of a callback and ends nothing (R62). -/
theorem inv_respond {s : State} (h : Inv s) (data : Word) (err : Bool) : Inv (s.respond data err) := by
  obtain ⟨hwf, hlim, hpend, hblocks, hend, hind, hidle, hfresh, hbelow, hzero⟩ := (inv_iff s).mp h
  refine (inv_iff _).mpr ⟨hwf, hlim, hpend, ?_, invOneEndAction_of_append hend rfl rfl rfl, hind, hidle, hfresh, hbelow,
    hzero⟩
  have ha : (Action.rsp data err).ofCallback = false := rfl
  simpa [scanAction_of_not_ofCallback _ ha] using hblocks

/-- A register read keeps the invariant (R44). -/
theorem inv_respondRead {s : State} (h : Inv s) (k : BitVec 2) : Inv (s.respondRead k) := by
  rw [State.respondRead_eq]
  exact inv_respond h _ _

/-- Arming keeps the invariant (R112). -/
theorem inv_arm {s : State} (h : Inv s) : Inv s.arm := by
  obtain ⟨hwf, hlim, hpend, hblocks, hend, hind, hidle, hfresh, hbelow, hzero⟩ := (inv_iff s).mp h
  by_cases hl : s.life = .unarmed
  · refine (inv_iff _).mpr ⟨hwf, hlim, ?_, hblocks, ?_, hind, hidle, ?_, hbelow, hzero⟩
    · simp [hl]
    · simpa [InvOneEndAction, hl, Life.over] using hend
    · simp [InvUnarmedIsFresh, hl]
  · have hsame : s.arm = s := by simp [State.arm, hl]
    rwa [hsame]

/-- The disarm primitive keeps the invariant: it clears `PEND` and emits the one action that ends the run (R92). -/
theorem inv_disarm {s : State} (h : Inv s) (e : Bool) : Inv (s.disarm e) := by
  obtain ⟨hwf, hlim, hpend, hblocks, hend, hind, hidle, hfresh, hbelow, hzero⟩ := (inv_iff s).mp h
  by_cases hl : s.life = .armed
  · rw [State.disarm_of_armed s e hl]
    refine (inv_iff _).mpr ⟨hwf, hlim, fun _ => rfl, ?_, ?_, hind, hidle, ?_, hbelow, hzero⟩
    · have ha : (if e then Action.fault else .disarmed).ofCallback = false := by cases e <;> rfl
      simpa [scanAction_of_not_ofCallback _ ha] using hblocks
    · have hnone : (s.trace.filter Action.endsSampling).length = 0 := by simpa [InvOneEndAction, hl, Life.over] using hend
      simp only [InvOneEndAction, List.filter_append, List.length_append, hnone]
      cases e <;> rfl
    · cases e <;> simp [InvUnarmedIsFresh]
  · rwa [State.disarm_of_not_armed s e hl]

/-- Entry keeps the invariant: an event is accepted only below the limit (R91). -/
theorem inv_takeEvent {s : State} (h : Inv s) (e : Bool) (hp : s.phase = .idle) (hl : s.life = .armed) :
    Inv (s.takeEvent e) := by
  obtain ⟨hwf, hlim, hpend, hblocks, hend, hind, hidle, hfresh, hbelow, hzero⟩ := (inv_iff s).mp h
  cases hat : s.atLimit with
  | true =>
    rw [State.takeEvent_of_atLimit s e hat]
    have htaken : Inv ({ s with pend := false } : State) :=
      (inv_iff _).mpr ⟨hwf, hlim, fun _ => rfl, hblocks, hend, hind, hidle, by simp [InvUnarmedIsFresh, hl], hbelow,
        hzero⟩
    exact inv_disarm htaken e
  | false =>
    rw [State.takeEvent_of_below s e hat]
    refine (inv_iff _).mpr ⟨hwf, hlim, fun _ => rfl, ?_, hend, ?_, ?_, ?_,
        fun _ => (State.atLimit_eq_false_iff s).mp hat, hzero⟩
    · rw [hp] at hblocks
      exact hblocks
    · simp [InvIndInsidePulse, (hidle hp).1]
    · simp [InvIdleIsClean]
    · simp [InvUnarmedIsFresh, hl]

/-- `HI` keeps the invariant: the pulse begins (R93). -/
theorem inv_hi {s : State} (h : Inv s) (e : Bool) (hp : s.phase = .hi) :
    Inv { s.indWrite true e with phase := .inc } := by
  obtain ⟨hwf, hlim, hpend, ⟨n, hscan, hn⟩, hend, hind, hidle, hfresh, hbelow, hzero⟩ := (inv_iff s).mp h
  rw [State.indWrite_eq]
  rw [hp] at hscan hn
  refine (inv_iff _).mpr ⟨hwf, hlim, hpend, ⟨n, ?_, hn⟩, invOneEndAction_of_append hend rfl rfl rfl, ?_, ?_, ?_,
      fun _ => hbelow (.inl hp), hzero⟩
  · rw [scanTrace_append, hscan]; rfl
  · simp [InvIndInsidePulse]
  · simp [InvIdleIsClean]
  · exact invUnarmedIsFresh_of_busy hfresh (by simp [hp]) rfl

/-- `INC` keeps the invariant: the event accepted below the limit is counted, ahead of its report (R94). -/
theorem inv_inc {s : State} (h : Inv s) (hp : s.phase = .inc) :
    Inv { s with count := incr s.cfg.width s.count, phase := .lo } := by
  obtain ⟨hwf, hlim, hpend, ⟨n, hscan, hn⟩, hend, hind, hidle, hfresh, hbelow, hzero⟩ := (inv_iff s).mp h
  obtain ⟨hincr, hle⟩ := incr_eq_of_inv h hp
  rw [hp] at hscan hn
  refine (inv_iff _).mpr ⟨hwf, ?_, hpend, ⟨n, hscan, ?_⟩, hend, ?_, ?_, ?_, ?_, hzero⟩
  · exact BitVec.le_def.mpr (hincr ▸ hle)
  · simp only [Phase.unreported] at hn ⊢
    omega
  · simp [InvIndInsidePulse, hind.mpr (.inl hp)]
  · simp [InvIdleIsClean]
  · exact invUnarmedIsFresh_of_busy hfresh (by simp [hp]) rfl
  · simp [InvAcceptedBelowLimit]

/-- `LO` keeps the invariant: the pulse ends (R95). -/
theorem inv_lo {s : State} (h : Inv s) (e : Bool) (hp : s.phase = .lo) :
    Inv { s.indWrite false e with phase := .smp } := by
  obtain ⟨hwf, hlim, hpend, ⟨n, hscan, hn⟩, hend, hind, hidle, hfresh, hbelow, hzero⟩ := (inv_iff s).mp h
  rw [State.indWrite_eq]
  rw [hp] at hscan hn
  refine (inv_iff _).mpr ⟨hwf, hlim, hpend, ⟨n, ?_, hn⟩, invOneEndAction_of_append hend rfl rfl rfl, ?_, ?_, ?_, ?_,
      hzero⟩
  · rw [scanTrace_append, hscan]; rfl
  · simp [InvIndInsidePulse]
  · simp [InvIdleIsClean]
  · exact invUnarmedIsFresh_of_busy hfresh (by simp [hp]) rfl
  · simp [InvAcceptedBelowLimit]

/-- `SMP` keeps the invariant: one request after the pulse, and the value 0 where it failed (R96). -/
theorem inv_smp {s : State} (h : Inv s) (e : Bool) (d : Sample) (hp : s.phase = .smp) :
    Inv { s.sampleRead e d with phase := .rpt } := by
  obtain ⟨hwf, hlim, hpend, ⟨n, hscan, hn⟩, hend, hind, hidle, hfresh, hbelow, hzero⟩ := (inv_iff s).mp h
  rw [State.sampleRead_eq]
  rw [hp] at hscan hn
  refine (inv_iff _).mpr ⟨hwf, hlim, hpend, ⟨n, ?_, hn⟩, invOneEndAction_of_append hend rfl rfl rfl, ?_, ?_, ?_, ?_, ?_⟩
  · rw [scanTrace_append, hscan]; rfl
  · simpa [InvIndInsidePulse, hp] using hind
  · simp [InvIdleIsClean]
  · exact invUnarmedIsFresh_of_busy hfresh (by simp [hp]) rfl
  · simp [InvAcceptedBelowLimit]
  · exact fun he => if_pos he

/-- `RPT` keeps the invariant: the report carries the number of the block it closes, and the transients are
cleared (R97). -/
theorem inv_rpt {s : State} (h : Inv s) (hp : s.phase = .rpt) :
    Inv (s.report s.reportTuple).returnFromEvent := by
  obtain ⟨hwf, hlim, hpend, ⟨n, hscan, hn⟩, hend, hind, hidle, hfresh, hbelow, hzero⟩ := (inv_iff s).mp h
  rw [hp] at hscan hn
  have hindex : s.reportTuple.index.toNat = n + 1 := hn.symm
  refine (inv_iff _).mpr ⟨hwf, hlim, hpend, ⟨n + 1, ?_, hn⟩, invOneEndAction_of_append hend rfl rfl rfl, ?_, ?_, ?_,
      ?_, ?_⟩
  · simp [hscan, Phase.blockPos, scanAction, hindex]
  · simpa [InvIndInsidePulse, hp] using hind
  · simpa [InvIdleIsClean, InvIndInsidePulse, hp] using hind
  · exact invUnarmedIsFresh_of_busy hfresh (by simp [hp]) rfl
  · simp [InvAcceptedBelowLimit]
  · simp [InvFailedReadIsZero]

/-- Every operation keeps the invariant where its condition holds. -/
theorem inv_exec {i : Instr} {s t : State} (h : Inv s) (ht : exec i s = .next t) : Inv t := by
  obtain ⟨hwf, rfl⟩ := (exec_next_iff i s t).mp ht
  cases i with
  | lineFall | lineHold0 => exact inv_sampleLine h false
  | lineRise | lineHold1 => exact inv_sampleLine h true
  | seqNone => exact h
  | dispatch e =>
    obtain ⟨hp, -, hl⟩ := (wellFormedIn_dispatch s e).mp hwf
    exact inv_takeEvent h e hp hl
  | hi e => exact inv_hi h e ((wellFormedIn_hi s e).mp hwf)
  | inc => exact inv_inc h ((wellFormedIn_inc s).mp hwf)
  | lo e => exact inv_lo h e ((wellFormedIn_lo s e).mp hwf)
  | smp e d => exact inv_smp h e d ((wellFormedIn_smp s e d).mp hwf)
  | rpt => exact inv_rpt h ((wellFormedIn_rpt s).mp hwf)
  | nop | rsv3 => exact inv_respond h 0 _
  | arm => exact inv_respond (inv_arm h) 0 false
  | disarm e => exact inv_respond (inv_disarm h e) 0 false
  | rdstatus | rdcount | rdlimit | rsv7 => exact inv_respondRead h _

end Sys2Proof.Machine
end

section
/-! SUPPORT. `STATUS` bit by bit (R21), and at reset (R27). -/

namespace Sys2Proof.Machine

/-- Bit `i` of `STATUS` is the bit of the field it lies in (R21). -/
theorem State.getLsbD_status (s : State) (i : Nat) :
    s.status.getLsbD i =
      if i < 2 then s.life.code.getLsbD i else if i ≤ 2 then s.pend else if i ≤ 3 then s.ind
      else if i ≤ 4 then s.busyOut else if i < 8 then s.phase.code.getLsbD (i - 5) else if i ≤ 8 then s.edgePrev
      else if i ≤ 9 then s.atLimit else false := by
  have h : s.status.getLsbD i = ((0#22 ++ BitVec.ofBool s.atLimit ++ BitVec.ofBool s.edgePrev ++ s.phase.code)
    ++ BitVec.ofBool s.busyOut ++ BitVec.ofBool s.ind ++ BitVec.ofBool s.pend ++ s.life.code).getLsbD i := rfl
  have hphase : i - 5 < 3 ↔ i < 8 := by omega
  simp only [h, BitVec.append_ofBool, BitVec.getLsbD_append, BitVec.getLsbD_concat, BitVec.getLsbD_zero, Nat.sub_sub,
    Nat.sub_eq_zero_iff_le]
  simp only [Nat.reduceAdd, hphase]

/-- The limit comparator is 1 at reset exactly for the limit 0 (R20). -/
theorem State.resetWith_atLimit (c : Config) : (State.resetWith c).atLimit = decide (c.eventLimit = 0) := by
  have h : c.eventLimit ≤ 0 ↔ c.eventLimit = 0 := BitVec.le_zero_iff
  exact decide_eq_decide.mpr h

/-- `STATUS` at reset holds nothing but the limit comparator (R27). -/
theorem State.resetWith_status (c : Config) :
    (State.resetWith c).status = if c.eventLimit = 0 then 0x00000200#32 else 0#32 := by
  have hpack : ∀ atLimit : Bool,
      (0#22 ++ BitVec.ofBool atLimit ++ BitVec.ofBool false ++ Phase.idle.code ++ BitVec.ofBool false
        ++ BitVec.ofBool false ++ BitVec.ofBool false ++ Life.unarmed.code : Word) =
        if atLimit then 0x00000200#32 else 0#32 := by decide
  calc (State.resetWith c).status
    _ = if (State.resetWith c).atLimit then 0x00000200#32 else 0#32 := hpack (State.resetWith c).atLimit
    _ = if c.eventLimit = 0 then 0x00000200#32 else 0#32 := by simp [State.resetWith_atLimit]

end Sys2Proof.Machine
end

section
/-! SUPPORT. What an operation can do to `LIFE` (R13), which operations emit what (R26), and the transients, which the disarm
primitive does not read (R18, R19). -/

namespace Sys2Proof

open Machine

namespace Machine

/-- `LINE.HOLD0` and `LINE.HOLD1`: a sample at the level already held changes nothing (R83). -/
theorem State.sampleLine_of_hold {s : State} {v : Bool} (h : s.edgePrev = v) : s.sampleLine v = s := by
  subst h
  rw [State.sampleLine_eq]
  simp

/-- What a `DISARM` can do to `LIFE` (R13, R92). -/
theorem State.disarm_life_cases (s : State) (e : Bool) :
    (s.disarm e).life = s.life ∨ (s.life = .armed ∧ (s.disarm e).life = if e then .faulted else .disarmed) := by
  by_cases h : s.life = .armed
  · exact .inr ⟨h, by simp [h]⟩
  · exact .inl (by simp [h])

/-- What a `DISPATCH` can do to `LIFE` (R13, R91). -/
theorem State.takeEvent_life_cases (s : State) (e : Bool) :
    (s.takeEvent e).life = s.life ∨ (s.life = .armed ∧ (s.takeEvent e).life = if e then .faulted else .disarmed) := by
  by_cases h : s.atLimit = true ∧ s.life = .armed
  · exact .inr ⟨h.2, by simp [h]⟩
  · exact .inl (by simp [h])

/-- The disarm primitive neither reads nor writes the transients (R18, R19, R92). -/
theorem State.disarm_transients (s : State) (v : Sample) (a b e : Bool) :
    ({ s with sval := v, sfail := a, ifail := b } : State).disarm e =
      { s.disarm e with sval := v, sfail := a, ifail := b } := by
  by_cases hl : s.life = .armed
  · simp [State.disarm_of_armed, hl]
  · simp [State.disarm_of_not_armed, hl]

/-- A report is shown exactly where one was emitted (R26). -/
theorem reportOf_isSome_iff (acts : List Action) : (reportOf acts).isSome = true ↔ ∃ r, .rpt r ∈ acts := by
  induction acts with
  | nil => simp [reportOf]
  | cons a rest ih => cases a <;> simp [reportOf, ih]

/-- A response is shown exactly where one was emitted (R26). -/
theorem responseOf_isSome (acts : List Action) : (responseOf acts).isSome = acts.any Action.isResponse := by
  induction acts with
  | nil => rfl
  | cons a rest ih => cases a <;> simp [responseOf, Action.isResponse, ih]

end Machine

/-- The only moves of `LIFE` by an operation that completes (R13). -/
theorem Instr.effect_life_cases (i : Instr) (s : State) :
    (i.effect s).life = s.life ∨ (s.life = .unarmed ∧ (i.effect s).life = .armed ∧ i = .arm) ∨
      (s.life = .armed ∧ (i.effect s).life = .disarmed ∧ (i = .disarm false ∨ i = .dispatch false)) ∨
      (s.life = .armed ∧ (i.effect s).life = .faulted ∧ (i = .disarm true ∨ i = .dispatch true)) := by
  cases i with
  | arm =>
    by_cases hl : s.life = .unarmed
    · exact .inr (.inl ⟨hl, by simp [Instr.effect, hl], rfl⟩)
    · exact .inl (by simp [Instr.effect, hl])
  | dispatch e =>
    rcases s.takeEvent_life_cases e with h | ⟨hl, h⟩
    · exact .inl h
    · cases e with
      | false => exact .inr (.inr (.inl ⟨hl, h, .inr rfl⟩))
      | true => exact .inr (.inr (.inr ⟨hl, h, .inr rfl⟩))
  | disarm e =>
    rcases s.disarm_life_cases e with h | ⟨hl, h⟩
    · exact .inl h
    · cases e with
      | false => exact .inr (.inr (.inl ⟨hl, h, .inl rfl⟩))
      | true => exact .inr (.inr (.inr ⟨hl, h, .inl rfl⟩))
  | _ => exact .inl (by simp [Instr.effect])

/-- `SMPREQ` is emitted by `SMP` only (R96). -/
theorem Instr.smpreq_mem_emits_iff (i : Instr) (s : State) : .smpreq ∈ i.emits s ↔ ∃ e d, i = .smp e d := by
  cases i with
  | dispatch e | disarm e => cases e <;> simp [Instr.emits]
  | _ => simp [Instr.emits]

/-- A report is emitted by `RPT` only (R97). -/
theorem Instr.rpt_mem_emits_iff (i : Instr) (s : State) : (∃ r, .rpt r ∈ i.emits s) ↔ i = .rpt := by
  cases i with
  | dispatch e | disarm e => cases e <;> simp [Instr.emits]
  | _ => simp [Instr.emits]

/-- A response is emitted by exactly the eight HOST operations (R110). -/
theorem Instr.any_isResponse_emits_iff (i : Instr) (s : State) :
    (i.emits s).any Action.isResponse = true ↔
      (i = .nop ∨ i = .arm ∨ (∃ e, i = .disarm e) ∨ i = .rsv3 ∨ i = .rdstatus ∨
        i = .rdcount ∨ i = .rdlimit ∨ i = .rsv7) := by
  cases i with
  | dispatch e => cases e <;> simp [Instr.emits, Action.isResponse]
  | _ => simp [Instr.emits, Action.isResponse]

end Sys2Proof
end

section
/-! SUPPORT. The end of a pulse, counted in SEQ steps (R17, R172). -/

namespace Sys2Proof.Machine

/-- The sequencer is `n` SEQ steps before the end of the pulse, or just past it: in LO, in INC, or in SMP with the
indicator low (R17, R102). -/
def PulseStepsLeft : Nat → State → Prop
  | 0, s => s.phase = .smp ∧ s.ind = false
  | 1, s => s.phase = .lo
  | 2, s => s.phase = .inc
  | _ + 3, _ => False

/-- A SEQ step brings the end of the pulse one step nearer (R94, R95). -/
theorem pulseStepsLeft_seq {n : Nat} {s : State} (e : Bool) (d : Sample) (h : PulseStepsLeft (n + 1) s) :
    ∃ t, execStim (.seq e d) s = .next t ∧ PulseStepsLeft n t := by
  match n, h with
  | 0, h => exact ⟨_, execStim_seq_lo s e d h, rfl, rfl⟩
  | 1, h => exact ⟨_, execStim_seq_inc s e d h, rfl⟩

/-- LINE and HOST steps write neither `PHASE` nor `IND` (R22). -/
theorem phase_ind_of_not_seq {st : Stim} (s : State) (h : st.isSeq = false) :
    ∃ t, execStim st s = .next t ∧ t.phase = s.phase ∧ t.ind = s.ind := by
  cases st with
  | line v => exact ⟨_, execStim_line_eq s v, rfl, rfl⟩
  | seq e d => cases h
  | host e cmd =>
    rcases execStim_host_cases s e cmd with ⟨-, h⟩ | ⟨-, h⟩ | ⟨-, -, data, err, h⟩
    all_goals exact ⟨_, h, by simp, by simp⟩

/-- Where the pulse stands is read off `PHASE` and `IND` alone. -/
theorem pulseStepsLeft_congr {n : Nat} {s t : State} (hphase : t.phase = s.phase) (hind : t.ind = s.ind)
    (h : PulseStepsLeft n s) : PulseStepsLeft n t := by
  match n, h with
  | 0, h => exact ⟨hphase.trans h.1, hind.trans h.2⟩
  | 1, h => exact hphase.trans h
  | 2, h => exact hphase.trans h

/-- Any schedule with exactly the SEQ steps that are left ends the pulse. -/
theorem runStims_of_pulseStepsLeft (stims : List Stim) (s : State) (h : PulseStepsLeft (seqSteps stims) s) :
    ∃ t, runStims stims s = .next t ∧ t.ind = false ∧ t.phase = .smp := by
  induction stims generalizing s with
  | nil => exact ⟨s, rfl, h.2, h.1⟩
  | cons st rest ih =>
    have hnext : ∃ t, execStim st s = .next t ∧ PulseStepsLeft (seqSteps rest) t := by
      cases hseq : st.isSeq with
      | false =>
        obtain ⟨t, ht, hphase, hind⟩ := phase_ind_of_not_seq s hseq
        have h' : PulseStepsLeft (seqSteps rest) s := by simpa [seqSteps, hseq] using h
        exact ⟨t, ht, pulseStepsLeft_congr hphase hind h'⟩
      | true =>
        have h' : PulseStepsLeft (seqSteps rest + 1) s := by simpa [seqSteps, hseq] using h
        cases st with
        | seq e d => exact pulseStepsLeft_seq e d h'
        | line v => cases hseq
        | host e cmd => cases hseq
    obtain ⟨t, ht, hleft⟩ := hnext
    simpa only [runStims, ht] using ih t hleft

end Sys2Proof.Machine
end

section
/-! Proofs of the state family (spec/10_state.md): the invariant, who reads and writes which register, the ports, `STATUS`
and reset. -/

namespace Sys2Proof

open Machine

/-- Settles O45: an operation keeps the invariant (`inv_exec`), a reset establishes it (`inv_resetWith`), and the rest of a
step writes only the model's own fields. -/
theorem stepKeepsTheInvariant : Obligations.StepKeepsTheInvariant := by
  intro s t h hstep
  obtain ⟨u, hu, hcase⟩ := step_next hstep
  have hInv : Inv u := hu ▸ inv_of_own_fields h s.setup u.script u.tick
  rcases hcase with ⟨i, hi⟩ | rfl | ⟨item, rfl⟩
  · exact inv_exec hInv hi
  · exact inv_of_own_fields (inv_resetWith hInv.1) Setup.nothing u.script u.tick
  · exact inv_of_own_fields hInv _ u.script u.tick

/-- Settles O34: every HOST operation but `DISARM` passes the transients through by its definition, and `DISARM` by
`disarm_transients`. -/
theorem hostCannotSeeTheTransients : Obligations.HostCannotSeeTheTransients := by
  intro s v a b e cmd
  refine ⟨_, execStim_eq _ s, (execStim_eq _ _).trans (congrArg _ ?_)⟩
  rcases cmd_cases cmd with h | h | h | h | h | h | h | h <;> subst h
  case inr.inr.inl => exact congrArg (State.respond 0 false) (s.disarm_transients v a b e)
  all_goals rfl

/-- Settles O35: the effect of each operation, field by field; a LINE step at the level already held has none. -/
theorem registersAreWrittenOnlyByTheirOwners : Obligations.RegistersAreWrittenOnlyByTheirOwners := by
  intro i s t ht
  obtain ⟨hwf, rfl⟩ := (exec_next_iff i s t).mp ht
  cases i with
  | lineHold0 =>
    have hsame : Instr.lineHold0.effect s = s := State.sampleLine_of_hold (by simpa using hwf)
    simp [hsame]
  | lineHold1 =>
    have hsame : Instr.lineHold1.effect s = s := State.sampleLine_of_hold hwf
    simp [hsame]
  | _ => simp [Instr.effect, State.falls]

/-- Settles O36: the moves of `LIFE` by `effect_life_cases`; none of them leaves FAULTED. -/
theorem lifeMovesOnlyForward : Obligations.LifeMovesOnlyForward := by
  intro i s t ht
  obtain ⟨-, rfl⟩ := (exec_next_iff i s t).mp ht
  have hmove := i.effect_life_cases s
  refine ⟨hmove, fun hfault => ?_⟩
  have hl : s.life = .faulted := of_decide_eq_true hfault
  simp only [hl, reduceCtorEq, false_and, or_false] at hmove
  exact decide_eq_true hmove

/-- Over a step of a run `COUNT` stays or grows by 1 (V7): only `INC` writes it, and there it is below the limit. -/
theorem count_step_of_inv {i : Instr} {s t : State} (h : Inv s) (ht : exec i s = .next t) :
    t.count = s.count ∨ t.count.toNat = s.count.toNat + 1 := by
  by_cases hi : i = .inc
  · subst hi
    obtain ⟨hwf, rfl⟩ := (exec_next_iff .inc s t).mp ht
    exact .inr (incr_eq_of_inv h ((wellFormedIn_inc s).mp hwf)).1
  · obtain ⟨-, hcount, -⟩ := registersAreWrittenOnlyByTheirOwners i s t ht
    exact .inl (not_imp_comm.mp hcount hi)

/-- Settles O37: `COUNT` by `count_step_of_inv`, `LIFE` by the complete list of its moves. -/
theorem countNeverDecreases : Obligations.CountNeverDecreases := by
  intro st s hInv
  have ht := execStim_eq st s
  refine ⟨_, ht, ?_⟩
  generalize (select st s.ctx).effect s = t at ht
  obtain ⟨hlife, -⟩ := lifeMovesOnlyForward _ s t ht
  have hcount : s.count.toNat ≤ t.count.toNat ∧ t.count.toNat ≤ s.count.toNat + 1 := by
    rcases count_step_of_inv hInv ht with h | h <;> simp [h]
  have hforward : s.life.code ≤ t.life.code ∧ (s.life.over = true → t.life = s.life) := by
    rcases hlife with h | ⟨h, h', -⟩ | ⟨h, h', -⟩ | ⟨h, h', -⟩
    · simp [h]
    all_goals simp [h, h', Life.code, Life.over]
  exact ⟨hcount.1, hforward.1, hcount.2, hforward.2⟩

/-- Settles O51: the ports of a step are read off the actions of its operation. -/
theorem stepPortsShowTheStep : Obligations.StepPortsShowTheStep := by
  intro i s t ht
  obtain ⟨-, rfl⟩ := (exec_next_iff i s t).mp ht
  rw [i.emitted_effect]
  refine ⟨i.effect_trace s, ?_, ?_, ?_, rfl, rfl, rfl, rfl⟩
  · exact List.contains_iff_mem.trans (i.smpreq_mem_emits_iff s)
  · exact (reportOf_isSome_iff _).trans (i.rpt_mem_emits_iff s)
  · exact (responseOf_isSome (i.emits s)).symm ▸ i.any_isResponse_emits_iff s

/-- Settles O53: by induction over the schedule (`runStims_of_pulseStepsLeft`); V4 says in which phase it starts. -/
theorem indicatorIsLoweredWithinTwoSeqSteps : Obligations.IndicatorIsLoweredWithinTwoSeqSteps := by
  intro s stims hV4 hind hsteps
  refine runStims_of_pulseStepsLeft stims s ?_
  rw [hsteps]
  rcases hV4.mp hind with hp | hp
  · rw [if_pos hp]; exact hp
  · rw [if_neg (by simp [hp])]; exact hp

/-- Settles O32: each bit of `STATUS` is the bit of the field that the layout places there (`getLsbD_status`). -/
theorem statusLayout : Obligations.StatusLayout := by
  intro s
  refine ⟨?_, ?_, ?_, ?_, ?_, ?_, ?_, ?_⟩
  · apply BitVec.eq_of_getLsbD_eq
    intro i hi
    simp [s.getLsbD_status, hi]
  · exact s.getLsbD_status 2
  · exact s.getLsbD_status 3
  · exact s.getLsbD_status 4
  · apply BitVec.eq_of_getLsbD_eq
    intro i hi
    rw [BitVec.getLsbD_extractLsb', s.getLsbD_status]
    simp [hi, show ¬ 5 + i < 2 by omega, show ¬ 5 + i ≤ 2 by omega, show ¬ 5 + i ≤ 3 by omega,
      show ¬ 5 + i ≤ 4 by omega, show 5 + i < 8 by omega]
  · exact s.getLsbD_status 8
  · exact s.getLsbD_status 9
  · apply BitVec.eq_of_getLsbD_eq
    intro i hi
    rw [BitVec.getLsbD_extractLsb', s.getLsbD_status]
    simp [show ¬ 10 + i < 2 by omega, show ¬ 10 + i ≤ 2 by omega, show ¬ 10 + i ≤ 3 by omega,
      show ¬ 10 + i ≤ 4 by omega, show ¬ 10 + i < 8 by omega, show ¬ 10 + i ≤ 8 by omega, show ¬ 10 + i ≤ 9 by omega]

/-- Settles O43: every register and port by the definition of reset, `STATUS` by `resetWith_status`. -/
theorem resetValues : Obligations.ResetValues := fun c _ =>
  ⟨rfl, rfl, rfl, rfl, rfl, rfl, rfl, rfl, rfl, rfl, rfl, rfl, State.resetWith_status c, rfl⟩

/-- Settles O46: `inv_resetWith` at the reference parameters and at any legal ones. -/
theorem invariantHoldsAtReset : Obligations.InvariantHoldsAtReset :=
  ⟨inv_resetWith Config.reference_wf, fun _ => inv_resetWith⟩

end Sys2Proof
end

section
/-! SUPPORT. What the recogniser of V3 says about the callback's actions already in the trace. -/

namespace Sys2Proof.Machine

/-- The only action of a callback that takes the recogniser just past the pulse is the low transition (V3). -/
theorem eq_ind_false_of_scanAction_pulseLow {p : Option (BlockPos × Nat)} {a : Action} {n : Nat}
    (ha : a.ofCallback = true) (h : scanAction p a = some (.pulseLow, n)) : a = .ind false := by
  cases a with
  | ind v =>
    cases v with
    | false => rfl
    | true => rcases p with _ | ⟨_ | _ | _ | _, k⟩ <;> simp [scanAction] at h
  | smpreq => rcases p with _ | ⟨_ | _ | _ | _, k⟩ <;> simp [scanAction] at h
  | rpt r =>
    rcases p with _ | ⟨_ | _ | _ | _, k⟩
    case rpt.some.sampled => by_cases hr : r.index.toNat = k + 1 <;> simp [scanAction, hr] at h
    all_goals simp [scanAction] at h
  | rsp | disarmed | fault => cases ha

/-- Where the trace stands just past the pulse, the last action of the callback in it is the low transition: later actions
are not a callback's, and leave the recogniser there. -/
theorem getLast?_ofCallback_of_scanTrace_pulseLow {tr : List Action} {n : Nat} (h : scanTrace tr = some (.pulseLow, n)) :
    (tr.filter Action.ofCallback).getLast? = some (.ind false) := by
  induction tr using List.reverseRecOn with
  | nil => cases h
  | append_singleton tr a ih =>
    rw [scanTrace_append] at h
    cases ha : a.ofCallback with
    | false =>
      rw [scanAction_of_not_ofCallback _ ha] at h
      simpa [ha] using ih h
    | true =>
      obtain rfl := eq_ind_false_of_scanAction_pulseLow ha h
      simp [ha]

end Sys2Proof.Machine
end

section
/-! Proofs of the memory family (spec/20_memory.md): the order of the indicator's transitions and the sample. -/

namespace Sys2Proof

open Machine

/-- Settles O48: `IND` is 0 by V4; the trace stands just past the pulse by V3, so the callback's last action is `IND(0)`; and
`SMP` appends its request without writing `IND`. -/
theorem sampleFollowsTheLowTransition : Obligations.SampleFollowsTheLowTransition := by
  intro s e d h hp
  obtain ⟨-, -, -, ⟨n, hscan, -⟩, -, hind, -⟩ := (inv_iff s).mp h
  have hlow : s.ind = false := by simpa [InvIndInsidePulse, hp] using hind
  have hlast : (s.trace.filter Action.ofCallback).getLast? = some (.ind false) := by
    rw [hp] at hscan
    exact getLast?_ofCallback_of_scanTrace_pulseLow hscan
  have hexec : exec (.smp e d) s = .next { s.sampleRead e d with phase := .rpt } :=
    (exec_next_iff _ s _).mpr ⟨(wellFormedIn_smp s e d).mpr hp, rfl⟩
  exact ⟨hlow, hlast, _, hexec, by simpa using hlow, s.sampleRead_trace e d⟩

end Sys2Proof
end

section
/-! SUPPORT. The decoder as an equation: which words name which step (R60), and that a step's own word names it. -/

namespace Sys2Proof

open Machine

/-- A word is its fields, `AGENT`, a 0 in bit 17, `E` and `D` (R60). -/
theorem stimWord_fields {w : StimWord} (h : bit17Of w = false) : stimWord (agentOf w) (eOf w) (dOf w) = w := by
  apply BitVec.eq_of_getLsbD_eq
  intro i hi
  rw [getLsbD_stimWord]
  rcases (by omega : i < 16 ∨ i = 16 ∨ i = 17 ∨ i = 18 ∨ i = 19) with hd | rfl | rfl | rfl | rfl
  · simp [hd, dOf]
  · rfl
  · exact h.symm
  all_goals simp [agentOf]

/-- A field whose bits from `k` up are 0 is its low `k` bits, zero-extended. -/
theorem zero_append_low {n k : Nat} (d : BitVec (n + k)) (h : d.extractLsb' k n = 0#n) :
    0#n ++ d.extractLsb' 0 k = d := by
  rw [← h, BitVec.extractLsb'_append_extractLsb'_eq_extractLsb' (Nat.zero_add k).symm, BitVec.extractLsb'_eq_self]

/-- The low bit of a field, as a field of its own. -/
theorem ofBool_getLsbD_zero {n : Nat} (d : BitVec n) : BitVec.ofBool (d.getLsbD 0) = d.extractLsb' 0 1 := by
  apply BitVec.eq_of_getLsbD_eq
  intro i hi
  obtain rfl : i = 0 := by omega
  simp

/-- The four values of `AGENT`. -/
theorem agent_cases : ∀ a : BitVec 2, a = 0#2 ∨ a = 1#2 ∨ a = 2#2 ∨ a = 3#2 := by decide

/-- The reserved agent names no step (R60). -/
theorem ofWord_agent3 {w : StimWord} (ha : agentOf w = 3#2) : Stim.ofWord w = .error .reservedAgent := by
  simp [Stim.ofWord, ha]

/-- A word with bit 17 set names no step (R60). -/
theorem ofWord_bit17 {w : StimWord} (h17 : bit17Of w = true) : ∃ why, Stim.ofWord w = .error why := by
  by_cases ha : agentOf w = 3#2
  · exact ⟨_, ofWord_agent3 ha⟩
  · exact ⟨.bit17Set, by simp [Stim.ofWord, ha, h17]⟩

/-- A SEQ word carries its draws in `E` and `D` (R64). -/
theorem ofWord_agent0 {w : StimWord} (h17 : bit17Of w = false) (ha : agentOf w = 0#2) :
    Stim.ofWord w = .ok (.seq (eOf w) (dOf w)) := by
  simp [Stim.ofWord, h17, ha]

/-- A LINE word carries the level in `D[0]`, and `D[15:1]` must be 0 (R60, R63). -/
theorem ofWord_agent1 {w : StimWord} (h17 : bit17Of w = false) (ha : agentOf w = 1#2) :
    Stim.ofWord w =
      if (dOf w).extractLsb' 1 15 = 0#15 then .ok (.line ((dOf w).getLsbD 0)) else .error .lineMustBeZero := by
  simp [Stim.ofWord, h17, ha]

/-- A HOST word carries its draw in `E` and the opcode in `D[2:0]`, and `D[15:3]` must be 0 (R60, R61). -/
theorem ofWord_agent2 {w : StimWord} (h17 : bit17Of w = false) (ha : agentOf w = 2#2) :
    Stim.ofWord w =
      if (dOf w).extractLsb' 3 13 = 0#13 then .ok (.host (eOf w) ((dOf w).extractLsb' 0 3))
      else .error .hostMustBeZero := by
  simp [Stim.ofWord, h17, ha]

/-- The words of a step (R60, R61, R63, R64), with any value of `E` where the step has no draw of it. -/
def WordOf (w : StimWord) : Stim → Prop
  | .line v => ∃ e, w = stimWord 1#2 e (0#15 ++ BitVec.ofBool v)
  | .seq e d => w = stimWord 0#2 e d
  | .host e cmd => w = stimWord 2#2 e (0#13 ++ cmd)

/-- A word that names a step has the form of that step's words. -/
theorem wordOf_of_ofWord {w : StimWord} {st : Stim} (h : Stim.ofWord w = .ok st) : WordOf w st := by
  cases h17 : bit17Of w with
  | true =>
    obtain ⟨why, hwhy⟩ := ofWord_bit17 h17
    cases hwhy ▸ h
  | false =>
    have hw := (stimWord_fields h17).symm
    rcases agent_cases (agentOf w) with ha | ha | ha | ha <;> rw [ha] at hw
    · cases (ofWord_agent0 h17 ha).symm.trans h
      exact hw
    · rw [ofWord_agent1 h17 ha] at h
      split at h <;> cases h
      next hd =>
        exact ⟨eOf w, by rw [ofBool_getLsbD_zero, zero_append_low _ hd, ← hw]⟩
    · rw [ofWord_agent2 h17 ha] at h
      split at h <;> cases h
      next hd =>
        rw [WordOf, zero_append_low _ hd, ← hw]
    · cases (ofWord_agent3 ha).symm.trans h

/-- A word names a step exactly where it has the form of that step's words. -/
theorem ofWord_eq_ok_iff (w : StimWord) (st : Stim) : Stim.ofWord w = .ok st ↔ WordOf w st := by
  refine ⟨wordOf_of_ofWord, fun h => ?_⟩
  cases st with
  | line v =>
    obtain ⟨e, rfl⟩ := h
    exact ofWord_stimWord_line e v
  | seq e d =>
    obtain rfl := h
    exact ofWord_stimWord_seq e d
  | host e cmd =>
    obtain rfl := h
    exact ofWord_stimWord_host e cmd

/-- The word of a step names that step. -/
@[simp] theorem ofWord_toWord (st : Stim) : Stim.ofWord st.toWord = .ok st := by
  cases st with
  | line v => exact ofWord_stimWord_line false v
  | seq e d => exact ofWord_stimWord_seq e d
  | host e cmd => exact ofWord_stimWord_host e cmd

/-- A word that names a step decodes to the operation that the step selects. -/
theorem decode_of_ofWord {w : StimWord} {st : Stim} (h : Stim.ofWord w = .ok st) (c : Ctx) :
    decode w c = .ok (select st c) := by
  simp [decode, h]

/-- The step that stands for an operation selects that operation wherever its `when` condition holds (R63, R64, R72). -/
theorem select_stim {i : Instr} {c : Ctx} (h : i.wellFormedIn c = true) : select i.stim c = i := by
  obtain ⟨life, pend, edgePrev, phase⟩ := c
  cases i with
  | lineFall | lineHold1 =>
    obtain rfl : edgePrev = true := h
    rfl
  | lineRise | lineHold0 =>
    obtain rfl : edgePrev = false := by simpa [Instr.wellFormedIn] using h
    rfl
  | seqNone | dispatch e =>
    simp only [Instr.wellFormedIn, Bool.and_eq_true, decide_eq_true_eq, Bool.not_eq_true'] at h
    simp [select, selectSeq, Instr.stim, h]
  | hi e | inc | lo e | smp e d | rpt =>
    obtain rfl := of_decide_eq_true h
    rfl
  | _ => rfl

end Sys2Proof
end

section
/-! SUPPORT. The opcode table (R72): which rows a word selects, by the step that it names. -/

namespace Sys2Proof

open Machine

/-- The mask of the LINE and HOST rows leaves out `E` alone. -/
theorem and_mask_eq_stimWord_iff (w : StimWord) (agent : BitVec 2) (d : BitVec 16) :
    w &&& 0xEFFFF#20 = stimWord agent false d ↔ ∃ e, w = stimWord agent e d := by
  have hmask : ∀ i : Fin 20, (0xEFFFF#20).getLsbD i = decide (i.val ≠ 16) := by decide
  constructor
  · intro h
    refine ⟨eOf w, BitVec.eq_of_getLsbD_eq fun i hi => ?_⟩
    by_cases h16 : i = 16
    · subst h16
      exact (getLsbD_stimWord agent (eOf w) d 16).symm
    · have hbit := congrArg (BitVec.getLsbD · i) h
      simpa [getLsbD_stimWord, hmask ⟨i, hi⟩, h16] using hbit
  · rintro ⟨e, rfl⟩
    apply BitVec.eq_of_getLsbD_eq
    intro i hi
    rw [BitVec.getLsbD_and, getLsbD_stimWord, getLsbD_stimWord, hmask ⟨i, hi⟩]
    by_cases h16 : i = 16 <;> simp [h16]

/-- The mask of the SEQ rows leaves out `E` and `D`. -/
theorem and_mask_eq_zero_iff (w : StimWord) : w &&& 0xE0000#20 = 0x00000#20 ↔ ∃ e d, w = stimWord 0#2 e d := by
  have hmask : ∀ i : Fin 20, (0xE0000#20).getLsbD i = decide (17 ≤ i.val) := by decide
  constructor
  · intro h
    have hhigh : ∀ i, 17 ≤ i → i < 20 → w.getLsbD i = false := by
      intro i h17 hi
      have hbit := congrArg (BitVec.getLsbD · i) h
      simpa [hmask ⟨i, hi⟩, h17] using hbit
    have ha : agentOf w = 0#2 := by
      apply BitVec.eq_of_getLsbD_eq
      intro i hi
      simpa [agentOf, hi] using hhigh (18 + i) (by omega) (by omega)
    exact ⟨eOf w, dOf w, by rw [← ha, stimWord_fields (hhigh 17 (by decide) (by decide))]⟩
  · rintro ⟨e, d, rfl⟩
    exact Laws.RowBits.seq_bits e d

/-- A step with its draws 0: what of a step a row of the table tells apart. -/
def Machine.Stim.noDraws : Stim → Stim
  | .line v => .line v
  | .seq _ _ => .seq false 0
  | .host _ cmd => .host false cmd

/-- The mask of the rows of a step's class (R72). -/
def Machine.Stim.mask : Stim → StimWord
  | .line _ | .host _ _ => 0xEFFFF#20
  | .seq _ _ => 0xE0000#20

/-- A word has a row's bits exactly where it names a step that is the row's up to the draws. -/
theorem and_mask_eq_toWord_iff (w : StimWord) (st : Stim) :
    w &&& st.mask = st.noDraws.toWord ↔ ∃ st', Stim.ofWord w = .ok st' ∧ st'.noDraws = st.noDraws := by
  simp only [ofWord_eq_ok_iff]
  cases st with
  | line v =>
    refine (and_mask_eq_stimWord_iff w 1#2 _).trans ⟨fun h => ⟨.line v, h, rfl⟩, ?_⟩
    rintro ⟨st', h, hst⟩
    cases st' <;> cases hst
    exact h
  | seq e d =>
    refine (and_mask_eq_zero_iff w).trans ⟨fun ⟨e', d', h⟩ => ⟨.seq e' d', h, rfl⟩, ?_⟩
    rintro ⟨st', h, hst⟩
    cases st' <;> cases hst
    exact ⟨_, _, h⟩
  | host e cmd =>
    refine (and_mask_eq_stimWord_iff w 2#2 _).trans ⟨fun ⟨e', h⟩ => ⟨.host e' cmd, h, rfl⟩, ?_⟩
    rintro ⟨st', h, hst⟩
    cases st' <;> cases hst
    exact ⟨_, h⟩

/-- The row of an operation: its mnemonic, the bits of its step, and its condition. -/
def Instr.row (i : Instr) : Row := ⟨i.mnemonic, i.stim.noDraws.toWord, i.stim.mask, i.wellFormedIn⟩

/-- One operation for each row of the table, in the table's order. -/
def tableOps : List Instr :=
  [.lineFall, .lineRise, .lineHold0, .lineHold1, .seqNone, .dispatch false, .hi false, .inc, .lo false, .smp false 0, .rpt,
    .nop, .arm, .disarm false, .rsv3, .rdstatus, .rdcount, .rdlimit, .rsv7]

/-- The table is the list of the operations' rows. -/
theorem opcodeRows_eq : opcodeRows = tableOps.map Instr.row := by
  have hdispatch : (fun c : Ctx => decide (c.phase = .idle) && (c.pend && decide (c.life = .armed))) =
      fun c => (Instr.dispatch false).wellFormedIn c := by
    funext c
    exact (Bool.and_assoc _ _ _).symm
  simp only [opcodeRows, seqRows, hdispatch]
  rfl

/-- A word that names no step selects no row (R60, R72). -/
theorem row_selects_of_error {w : StimWord} {why : Reject} (h : Stim.ofWord w = .error why) (i : Instr) (c : Ctx) :
    i.row.selects w c = false := by
  have hbits : ¬ w &&& i.row.mask = i.row.matchBits := by
    intro hw
    obtain ⟨st, hst, -⟩ := (and_mask_eq_toWord_iff w i.stim).mp hw
    cases h.symm.trans hst
  simp [Row.selects, hbits]

/-- A word that names a step selects the rows of that step whose condition holds (R72). -/
theorem row_selects_of_ok {w : StimWord} {st : Stim} (h : Stim.ofWord w = .ok st) (i : Instr) (c : Ctx) :
    i.row.selects w c = (decide (st.noDraws = i.stim.noDraws) && i.wellFormedIn c) := by
  have hbits : w &&& i.row.mask = i.row.matchBits ↔ st.noDraws = i.stim.noDraws :=
    (and_mask_eq_toWord_iff w i.stim).trans (by simp [h])
  simp only [Row.selects, hbits]
  rfl

/-- Of the rows of a step, exactly one has its condition in a state: that of the operation selected (R72). -/
theorem tableOps_filter (st : Stim) (c : Ctx) :
    (tableOps.filter fun i => decide (st.noDraws = i.stim.noDraws) && i.wellFormedIn c).map Instr.mnemonic =
      [(select st c).mnemonic] := by
  obtain ⟨life, pend, edgePrev, phase⟩ := c
  cases st with
  | line v => cases v <;> cases edgePrev <;> rfl
  | seq e d => cases phase <;> cases pend <;> cases life <;> rfl
  | host e cmd => rcases cmd_cases cmd with h | h | h | h | h | h | h | h <;> subst h <;> rfl

/-- The mnemonics of the rows that a word selects are those of the operations whose rows it selects. -/
theorem opcodeRows_filter (w : StimWord) (c : Ctx) :
    opcodeRows.filter (fun r => r.selects w c) = (tableOps.filter fun i => i.row.selects w c).map Instr.row := by
  rw [opcodeRows_eq, List.filter_map]
  rfl

end Sys2Proof
end

section
/-! SUPPORT. What a step reads of its word (R60, R69), and what a HOST command answers (R62). -/

namespace Sys2Proof

open Machine

/-- The word of a SEQ step decodes to the operation that `PHASE`, `PEND` and `LIFE` select, with the word's draws (R64). -/
theorem decode_stimWord_seq (e : Bool) (d : Sample) (c : Ctx) : decode (stimWord 0#2 e d) c = .ok (selectSeq e d c) :=
  decode_of_ofWord (ofWord_stimWord_seq e d) c

/-- The draw `D` is read in the phase SMP only (R69). -/
theorem selectSeq_ignores_d {c : Ctx} (h : c.phase ≠ .smp) (e : Bool) (d d' : Sample) :
    selectSeq e d c = selectSeq e d' c := by
  cases hp : c.phase with
  | smp => exact absurd hp h
  | _ => simp only [selectSeq, hp]

/-- Of the HOST commands `DISARM` alone reads the draw `E` (R69). -/
theorem selectHost_ignores_e {cmd : BitVec 3} (h : cmd ≠ 0b010#3) (e e' : Bool) :
    selectHost e cmd = selectHost e' cmd := by
  rcases cmd_cases cmd with rfl | rfl | rfl | rfl | rfl | rfl | rfl | rfl
  case inr.inr.inl => exact absurd rfl h
  all_goals rfl

namespace Machine

/-- `ARM` as a step (R112). -/
theorem execStim_arm (s : State) (e : Bool) : execStim (.host e 0b001#3) s = .next (s.arm.respond 0 false) :=
  execStim_eq _ s

/-- `DISARM` as a step (R113). -/
theorem execStim_disarm (s : State) (e : Bool) :
    execStim (.host e 0b010#3) s = .next ((s.disarm e).respond 0 false) :=
  execStim_eq _ s

/-- The `data` of the response to a command (R62). -/
def State.responseData (s : State) (cmd : BitVec 3) : Word :=
  if cmd = 0b100#3 then s.status
  else if cmd = 0b101#3 then zext32 s.cfg.width s.count
  else if cmd = 0b110#3 then zext32 s.cfg.width s.limit
  else 0

/-- A command other than `ARM` and `DISARM` only responds, with the table's `data` and `err` (R62, R110). -/
theorem execStim_host_of_only_responds (s : State) (e : Bool) {cmd : BitVec 3} (harm : cmd ≠ 0b001#3)
    (hdisarm : cmd ≠ 0b010#3) :
    execStim (.host e cmd) s = .next (s.respond (s.responseData cmd) (decide (cmd = 0b011#3 ∨ cmd = 0b111#3))) := by
  rcases cmd_cases cmd with rfl | rfl | rfl | rfl | rfl | rfl | rfl | rfl
  case inr.inl => exact absurd rfl harm
  case inr.inr.inl => exact absurd rfl hdisarm
  all_goals exact execStim_eq _ s

/-- What `zext_32` of a register reads, where the width is legal (R68). -/
theorem zext32_toNat {w : Nat} (hw : 2 ^ w ≤ 2 ^ 32) (v : Word) : (zext32 w v).toNat = v.toNat % 2 ^ w := by
  have hlt : v.toNat % 2 ^ w < 2 ^ w := Nat.mod_lt _ (Nat.two_pow_pos w)
  rw [zext32, BitVec.toNat_ofNat, Nat.mod_eq_of_lt (hlt.trans_le hw)]

end Machine

end Sys2Proof
end

section
/-! SUPPORT. The report and its word (R66). -/

namespace Sys2Proof.Machine

/-- `fail[0]` is `SFAIL` and `fail[1]` is `IFAIL` (R66). -/
theorem getLsbD_failField (sfail ifail : Bool) :
    (failField sfail ifail).getLsbD 0 = sfail ∧ (failField sfail ifail).getLsbD 1 = ifail := by
  cases sfail <;> cases ifail <;> decide

/-- In a run, an event reported is counted: `COUNT` is at least 1 where a report is due (V10). -/
theorem one_le_count_of_inv {s : State} (h : Inv s) (hp : s.phase = .rpt) : 1 ≤ s.count.toNat := by
  obtain ⟨-, -, -, ⟨n, -, hn⟩, -⟩ := (inv_iff s).mp h
  rw [hp] at hn
  exact hn ▸ Nat.le_add_left 1 n

/-- In a run `COUNT` fits in its `W` bits (V1, R5). -/
theorem count_lt_of_inv {s : State} (h : Inv s) : s.count.toNat < 2 ^ s.cfg.width := by
  obtain ⟨hwf, hlim, -⟩ := (inv_iff s).mp h
  obtain ⟨-, -, -, hL⟩ := Config.wf_spec s.cfg hwf
  exact Nat.lt_of_le_of_lt hlim hL

/-- The report word as a number, where the index fits in `W` bits: no field overlaps another (R66). -/
theorem rptWord_toNat {w : Nat} {r : Report} (h : r.index.toNat < 2 ^ w) :
    (rptWord w r).toNat = r.index.toNat * 2 ^ 18 + r.fail.toNat * 2 ^ 16 + r.value.toNat := by
  have hfail := r.fail.isLt
  have hvalue := r.value.isLt
  rw [rptWord, BitVec.toNat_ofNat, Nat.mod_eq_of_lt]
  rw [Nat.pow_add]
  omega

end Sys2Proof.Machine
end

section
/-! SUPPORT. The pseudo-operation `RUN` (R71): the SEQ steps that are left, counted. -/

namespace Sys2Proof.Machine

/-- The SEQ steps left of the callback in progress (R102). -/
def Phase.stepsLeft : Phase → Nat
  | .idle => 0
  | .hi => 5
  | .inc => 4
  | .lo => 3
  | .smp => 2
  | .rpt => 1

/-- A bound on the SEQ steps left: those of the callback in progress and the six of one more for a pending edge. -/
def State.seqStepsLeft (s : State) : Nat :=
  s.phase.stepsLeft + if s.pend = true ∧ s.life = .armed then 6 else 0

/-- The bound is that of `RUN` (log 17). -/
theorem State.seqStepsLeft_le (s : State) : s.seqStepsLeft ≤ runFuel := by
  have hphase : s.phase.stepsLeft ≤ 5 := by cases s.phase <;> decide
  unfold State.seqStepsLeft runFuel
  split <;> omega

/-- SEQ is enabled exactly where steps are left (R90). -/
theorem State.seqEnabled_iff_stepsLeft (s : State) : s.seqEnabled = true ↔ 0 < s.seqStepsLeft := by
  rw [State.seqEnabled_iff, State.seqStepsLeft]
  cases hp : s.phase with
  | idle => by_cases h : s.pend = true ∧ s.life = .armed <;> simp [Phase.stepsLeft, h]
  | _ => simp [Phase.stepsLeft]

/-- A SEQ step that is enabled leaves fewer (R91 to R97). -/
theorem seqStepsLeft_lt_of_seq {s : State} (e : Bool) (d : Sample) (h : s.seqEnabled = true) :
    ∃ t, execStim (.seq e d) s = .next t ∧ t.seqStepsLeft < s.seqStepsLeft := by
  cases hp : s.phase with
  | idle =>
    have hnext : s.pend = true ∧ s.life = .armed := by simpa [State.seqEnabled_iff, hp] using h
    refine ⟨_, execStim_seq_dispatch s e d hp hnext.1 hnext.2, ?_⟩
    cases hat : s.atLimit <;> simp [State.seqStepsLeft, Phase.stepsLeft, hp, hnext, hat]
  | hi => exact ⟨_, execStim_seq_hi s e d hp, by simp [State.seqStepsLeft, Phase.stepsLeft, hp]⟩
  | inc => exact ⟨_, execStim_seq_inc s e d hp, by simp [State.seqStepsLeft, Phase.stepsLeft, hp]⟩
  | lo => exact ⟨_, execStim_seq_lo s e d hp, by simp [State.seqStepsLeft, Phase.stepsLeft, hp]⟩
  | smp => exact ⟨_, execStim_seq_smp s e d hp, by simp [State.seqStepsLeft, Phase.stepsLeft, hp]⟩
  | rpt => exact ⟨_, execStim_seq_rpt s e d hp, by simp [State.seqStepsLeft, Phase.stepsLeft, hp]⟩

/-- A listed word of a step is that step. -/
theorem execInput_toWord (st : Stim) (s : State) : execInput (.word st.toWord) s = execStim st s := by
  simp only [execInput, decode_of_ofWord (ofWord_toWord st), execStim]

/-- The step that `RUN` takes in a state (R71). -/
def runStim (e : Bool) (d : Sample) (s : State) : Stim := if s.phase = .smp then .seq e d else .seq false 0

/-- `RUN` takes one step where SEQ is enabled, and goes on from the state reached. -/
theorem runInputs_of_enabled {e : Bool} {d : Sample} {s t : State} (n : Nat) (h : s.seqEnabled = true)
    (ht : execStim (runStim e d s) s = .next t) :
    runInputs e d (n + 1) s = .word (runStim e d s).toWord :: runInputs e d n t := by
  unfold runStim at ht ⊢
  simp only [runInputs, h, if_true, ht]

/-- `RUN` is empty where SEQ is not enabled. -/
theorem runInputs_of_not_enabled (e : Bool) (d : Sample) {s : State} (n : Nat) (h : s.seqEnabled = false) :
    runInputs e d n s = [] := by
  cases n <;> simp [runInputs, h]

/-- The step that `RUN` takes leaves fewer. -/
theorem seqStepsLeft_lt_of_runStim (e : Bool) (d : Sample) {s : State} (h : s.seqEnabled = true) :
    ∃ t, execStim (runStim e d s) s = .next t ∧ t.seqStepsLeft < s.seqStepsLeft := by
  unfold runStim
  split <;> exact seqStepsLeft_lt_of_seq _ _ h

/-- `RUN` with enough fuel ends quiescent, within that fuel. -/
theorem runInputs_quiescent (e : Bool) (d : Sample) (n : Nat) (s : State) (hn : s.seqStepsLeft ≤ n) :
    (runInputs e d n s).length ≤ n ∧ ∃ t, runListed (runInputs e d n s) s = .next t ∧ t.quiescent = true := by
  induction n generalizing s with
  | zero =>
    have hen : s.seqEnabled = false := by
      rw [← Bool.not_eq_true, s.seqEnabled_iff_stepsLeft]; omega
    exact ⟨Nat.le_refl 0, s, rfl, by simp [State.quiescent, hen]⟩
  | succ n ih =>
    cases hen : s.seqEnabled with
    | false =>
      rw [runInputs_of_not_enabled e d (n + 1) hen]
      exact ⟨Nat.zero_le _, s, rfl, by simp [State.quiescent, hen]⟩
    | true =>
      obtain ⟨t, ht, hlt⟩ := seqStepsLeft_lt_of_runStim e d hen
      obtain ⟨hlen, u, hu, hq⟩ := ih t (by omega)
      rw [runInputs_of_enabled n hen ht]
      refine ⟨Nat.succ_le_succ hlen, u, ?_, hq⟩
      simpa only [runListed, execInput_toWord, ht] using hu

end Sys2Proof.Machine
end

section
/-! SUPPORT. The step of the machine on a list of inputs (R60, R69). -/

namespace Sys2Proof.Machine

/-- An invalid list's verdict names one of its words that names no step, by its position counted from `k` (R69). -/
theorem firstInvalid_eq_some {inputs : List Input} {k j : Nat} {why : Reject}
    (h : firstInvalid k inputs = some (j, why)) :
    ∃ n w, j = k + n ∧ inputs[n]? = some (.word w) ∧ Stim.ofWord w = .error why := by
  induction inputs generalizing k with
  | nil => cases h
  | cons inp rest ih =>
    have hrest (hr : firstInvalid (k + 1) rest = some (j, why)) :
        ∃ n w, j = k + n ∧ (inp :: rest)[n]? = some (.word w) ∧ Stim.ofWord w = .error why := by
      obtain ⟨n, w, hj, hw, hwhy⟩ := ih hr
      exact ⟨n + 1, w, by omega, hw, hwhy⟩
    cases inp with
    | rst => exact hrest h
    | setup item => exact hrest h
    | word w =>
      cases hw : Stim.ofWord w with
      | ok st => exact hrest (by simpa only [firstInvalid, hw] using h)
      | error why' =>
        simp only [firstInvalid, hw, Option.some.injEq, Prod.mk.injEq] at h
        obtain ⟨rfl, rfl⟩ := h
        exact ⟨0, w, rfl, rfl, hw⟩

/-- With a valid list a step is its first input, on the state with that input taken off. -/
theorem step_of_valid {s : State} {inp : Input} {rest : List Input} (hs : s.script = inp :: rest)
    (hvalid : scriptValid (inp :: rest) = true) : step s = execInput inp { s with script := rest } := by
  have hnone : firstInvalid 0 (inp :: rest) = none := Option.isNone_iff_eq_none.mp hvalid
  simp [step, stepOnce, hs, hnone]

/-- With a valid rest, a word listed first runs the operation it decodes to. -/
theorem step_word {s : State} {w : StimWord} {rest : List Input} {i : Instr} (hs : s.script = .word w :: rest)
    (hvalid : scriptValid rest = true) (hdec : decode w s.ctx = .ok i) : step s = exec i { s with script := rest } := by
  have hw : ∃ st, Stim.ofWord w = .ok st := by
    cases hw : Stim.ofWord w with
    | ok st => exact ⟨st, rfl⟩
    | error why => simp [decode, hw] at hdec
  rw [step_of_valid hs ((scriptValid_word w rest).mpr ⟨hw, hvalid⟩)]
  have hdec' : decode w ({ s with script := rest } : State).ctx = .ok i := hdec
  simp only [execInput, hdec']

/-- A word placed in front of a valid list runs next, on the state it was placed in. -/
theorem step_withFetchWord {s : State} (nbits : Nat) {w : Nat} {i : Instr} (hw : w < 2 ^ 20)
    (hvalid : scriptValid s.script = true) (hdec : decode (BitVec.ofNat 20 w) s.ctx = .ok i) :
    step (s.withFetchWord nbits w) = exec i s := by
  have hs : (s.withFetchWord nbits w).script = .word (BitVec.ofNat 20 w) :: s.script := by
    simp only [State.withFetchWord, inputOfNat, if_pos hw]
  exact step_word hs hvalid hdec

/-- What `decodeTableWord` reads is what the decoder reads in the state right after reset (log 4). -/
theorem decodeTableWord_eq_some {nbits w : Nat} {i : Instr} (h : decodeTableWord nbits w = some i) :
    w < 2 ^ 20 ∧ decode (BitVec.ofNat 20 w) State.reset.ctx = .ok i := by
  unfold decodeTableWord at h
  split at h
  case isFalse => cases h
  case isTrue hw =>
    refine ⟨hw, ?_⟩
    change decode (BitVec.ofNat 20 w) resetCtx = .ok i
    cases hdec : decode (BitVec.ofNat 20 w) resetCtx with
    | ok j => simpa [hdec] using h
    | error why => simp [hdec] at h

/-- A step of an agent completes in every state. -/
theorem completes_execStim (st : Stim) (s : State) : Completes (execStim st s) := ⟨_, execStim_eq st s⟩

/-- A free move completes in every state. -/
theorem completes_execMove (m : Move) (s : State) : Completes (execMove m s) := by
  cases m with
  | stim st => exact completes_execStim st s
  | rst => exact ⟨_, rfl⟩
  | setup item => exact ⟨_, rfl⟩

/-- The first input of a valid list completes in every state. -/
theorem completes_execInput {inp : Input} {rest : List Input} (h : scriptValid (inp :: rest) = true) (s : State) :
    Completes (execInput inp s) := by
  cases inp with
  | word w =>
    obtain ⟨⟨st, hst⟩, -⟩ := (scriptValid_word w rest).mp h
    simp only [execInput, decode_of_ofWord hst]
    exact completes_execStim st s
  | rst => exact ⟨_, rfl⟩
  | setup item => exact ⟨_, rfl⟩

end Sys2Proof.Machine
end

section
/-! Proofs of the encoding family (spec/30_encoding.md): the decoder and its table, the bits a step does not read, the
answers to the host, the report's fields and word, `RUN`, and the step of the machine on its list of inputs. -/

namespace Sys2Proof

open Machine

/-- Settles O2: the word of an operation names its step (`ofWord_toWord`), and that step selects the operation
(`select_stim`). -/
theorem encodedOperationDecodesToItself : Obligations.EncodedOperationDecodesToItself := by
  intro i c h
  rw [encode, decode_of_ofWord (ofWord_toWord i.stim), select_stim h]

/-- Settles O3: per value of `AGENT` and of bit 17, by the equations of `Stim.ofWord`. -/
theorem invalidWordsAreExactlyThese : Obligations.InvalidWordsAreExactlyThese := by
  intro w
  have hline : (dOf w).extractLsb' 1 15 = w.extractLsb' 1 15 := BitVec.extractLsb'_extractLsb'_of_le (by decide)
  have hhost : (dOf w).extractLsb' 3 13 = w.extractLsb' 3 13 := BitVec.extractLsb'_extractLsb'_of_le (by decide)
  rw [← hline, ← hhost]
  change _ ↔ (agentOf w = 3#2 ∨ bit17Of w = true ∨ (agentOf w = 1#2 ∧ _) ∨ agentOf w = 2#2 ∧ _)
  cases h17 : bit17Of w with
  | true => simpa using ofWord_bit17 h17
  | false =>
    rcases agent_cases (agentOf w) with ha | ha | ha | ha
    · simp [ofWord_agent0 h17 ha, ha]
    · by_cases hd : (dOf w).extractLsb' 1 15 = 0#15 <;> simp [ofWord_agent1 h17 ha, ha, hd]
    · by_cases hd : (dOf w).extractLsb' 3 13 = 0#13 <;> simp [ofWord_agent2 h17 ha, ha, hd]
    · simp [ofWord_agent3 ha, ha]

/-- Settles O4: the table is the list of the operations' rows, of which a word selects those of its step
(`row_selects_of_ok`) whose condition holds, and that is one (`tableOps_filter`). -/
theorem validWordSelectsExactlyOneRow : Obligations.ValidWordSelectsExactlyOneRow := by
  refine ⟨rfl, rfl, rfl, fun w c => ?_⟩
  rw [opcodeRows_filter]
  cases hw : Stim.ofWord w with
  | ok st =>
    simp only [decode_of_ofWord hw, row_selects_of_ok hw, reduceCtorEq, false_implies, implies_true, and_true]
    rintro i ⟨⟩
    exact ⟨by rw [List.map_map]; exact tableOps_filter st c, select_wellFormedIn st c⟩
  | error why => simp [decode, hw, row_selects_of_error hw]

/-- Settles O5: where a draw is not read, either the operation selected does not carry it (`selectSeq_ignores_d`,
`selectHost_ignores_e`) or its effect does not depend on it. -/
theorem ignoredBitsDoNotAffectTheStep : Obligations.IgnoredBitsDoNotAffectTheStep := by
  intro s e e' v d d' cmd
  refine ⟨?_, fun hcmd => ?_, fun hl => ?_, fun hp => ?_, fun hp => ?_, fun h => ?_⟩
  · rw [decode_of_ofWord (ofWord_stimWord_line e v), decode_of_ofWord (ofWord_stimWord_line e' v)]
  · exact congrArg (exec · s) (selectHost_ignores_e hcmd e e')
  · rw [execStim_disarm, execStim_disarm, State.disarm_of_not_armed s e hl, State.disarm_of_not_armed s e' hl]
  · exact congrArg (exec · s) (selectSeq_ignores_d hp e d d')
  · rw [execStim_seq_smp s true d hp, execStim_seq_smp s true d' hp]
    rfl
  · rcases h with hp | hp | hen | ⟨hp, hlt⟩
    · rw [execStim_seq_inc s e d hp, execStim_seq_inc s e' d hp]
    · rw [execStim_seq_rpt s e d hp, execStim_seq_rpt s e' d hp]
    · rw [execStim_seq_of_not_enabled s e d hen, execStim_seq_of_not_enabled s e' d hen]
    · cases hen : s.seqEnabled with
      | false => rw [execStim_seq_of_not_enabled s e d hen, execStim_seq_of_not_enabled s e' d hen]
      | true =>
        obtain ⟨hpend, hl⟩ : s.pend = true ∧ s.life = .armed := by simpa [State.seqEnabled_iff, hp] using hen
        have hbelow := s.atLimit_eq_false_iff.mpr hlt
        rw [execStim_seq_dispatch s e d hp hpend hl, execStim_seq_dispatch s e' d hp hpend hl,
          s.takeEvent_of_below e hbelow, s.takeEvent_of_below e' hbelow]

/-- Settles O11: a SEQ word decodes by `selectSeq`, which is the statement's table. -/
theorem seqWordSelectsTheMicroOpOfPhase : Obligations.SeqWordSelectsTheMicroOpOfPhase := by
  intro c e d
  rw [decode_stimWord_seq, selectSeq]
  cases c.phase with
  | idle => simp only [Bool.and_eq_true, decide_eq_true_eq]
  | _ => rfl

/-- Settles O33: `ARM` and `DISARM` act and then respond; the other six commands only respond
(`execStim_host_of_only_responds`). -/
theorem hostCommandAlwaysResponds : Obligations.HostCommandAlwaysResponds := by
  intro s e cmd
  by_cases harm : cmd = 0b001#3
  · subst harm
    refine ⟨_, [], 0, false, execStim_arm s e, ?_, by simp⟩
    rw [State.respond_eq, List.append_nil]
    rfl
  by_cases hdisarm : cmd = 0b010#3
  · subst hdisarm
    by_cases hl : s.life = .armed
    · refine ⟨_, [if e then .fault else .disarmed], 0, false, execStim_disarm s e, ?_, ?_⟩
      · rw [State.disarm_of_armed s e hl, State.respond_eq]
      · cases e <;> simp [Action.endsSampling]
    · refine ⟨_, [], 0, false, execStim_disarm s e, ?_, by simp⟩
      rw [State.disarm_of_not_armed s e hl, State.respond_eq, List.append_nil]
  · refine ⟨_, [], s.responseData cmd, _, execStim_host_of_only_responds s e harm hdisarm, ?_, nofun, Nat.zero_le 1,
      fun _ => ⟨rfl, rfl⟩, fun _ _ => rfl, rfl, rfl⟩
    rw [State.respond_eq, List.append_nil]

/-- Settles O49: the report is `reportTuple`; its index is `COUNT`, which counts the event (V10) and is at most `LIMIT` (V1),
and the value of a failed read is 0 by the invariant. -/
theorem reportFields : Obligations.ReportFields := by
  intro s h hp
  obtain ⟨-, hlim, -, -, -, -, -, -, -, hzero⟩ := (inv_iff s).mp h
  obtain ⟨hfail0, hfail1⟩ := getLsbD_failField s.sfail s.ifail
  have hexec : exec .rpt s = .next (s.report s.reportTuple).returnFromEvent :=
    (exec_next_iff _ s _).mpr ⟨(wellFormedIn_rpt s).mpr hp, rfl⟩
  exact ⟨_, s.reportTuple, hexec, rfl, rfl, one_le_count_of_inv h hp, hlim, count_lt_of_inv h, hfail0, hfail1,
    fun _ => rfl, fun hf => hzero (hfail0.symm.trans hf)⟩

/-- Settles O50: the word as a number (`rptWord_toNat`), from which each field is read back. -/
theorem reportWordPacking : Obligations.ReportWordPacking := by
  intro w r _ hindex
  have hfail := r.fail.isLt
  have hvalue := r.value.isLt
  refine ⟨BitVec.eq_of_toNat_eq ?_, BitVec.eq_of_toNat_eq ?_, ?_⟩ <;>
    rw [BitVec.extractLsb'_toNat, rptWord_toNat hindex, Nat.shiftRight_eq_div_pow]
  · omega
  · omega
  · rw [Nat.mod_eq_of_lt] <;> omega

/-- Settles O55: each step of `RUN` leaves fewer SEQ steps, of which there are at most eleven. -/
theorem runPseudoOpEndsQuiescent : Obligations.RunPseudoOpEndsQuiescent :=
  fun s e d => runInputs_quiescent e d runFuel s s.seqStepsLeft_le

/-- Settles O57: by what one step can do (`step_cases`); the refusal names a word of the list by `firstInvalid_eq_some`. -/
theorem stepCompletesOnEveryValidScript : Obligations.StepCompletesOnEveryValidScript := by
  intro s
  rcases step_cases s with ⟨hs, hstep⟩ | ⟨k, why, hinv, hstep⟩ | ⟨inp, rest, hs, hvalid, hstep⟩
  · rw [hs, hstep]
    exact ⟨fun _ => completes_execMove _ _, nofun⟩
  · refine ⟨fun hvalid => by simp [scriptValid, hinv] at hvalid, fun _ => ?_⟩
    obtain ⟨n, w, hk, hw, hwhy⟩ := firstInvalid_eq_some hinv
    rw [Nat.zero_add] at hk
    exact ⟨k, w, why, hstep, hk ▸ hw, hwhy⟩
  · rw [hstep]
    exact ⟨fun _ => completes_execInput (hs ▸ hvalid) _, fun hinv => by cases hinv.symm.trans hvalid⟩

/-- Settles O58: the meaning of every operation is its effect under its condition (`exec_eq_whenSelected`). -/
theorem rowHasAStepExactlyUnderItsCondition : Obligations.RowHasAStepExactlyUnderItsCondition := by
  intro i s
  rw [exec_eq_whenSelected]
  exact ⟨fun h => ⟨_, whenSelected_of_wellFormed _ h⟩, whenSelected_of_not _⟩

/-- Settles O1: each valid word is the encoding of its operation, so O2 applies; the invalid words are evaluated. -/
theorem writtenOutWordsDecode : Obligations.WrittenOutWordsDecode :=
  have hdecode := encodedOperationDecodesToItself
  ⟨hdecode .lineFall _ rfl, hdecode .lineRise _ rfl, hdecode (.dispatch true) _ rfl, hdecode (.smp false 0x8000#16) _ rfl,
    hdecode .arm _ rfl, hdecode (.disarm true) _ rfl, hdecode .rdstatus _ rfl, rfl, rfl, rfl⟩

/-- Settles O29: the response carries `zext_32(COUNT)`, which is `COUNT` itself where `COUNT` is at most the legal
`LIMIT`. -/
theorem rdcountReadsCount : Obligations.RdcountReadsCount := by
  intro s
  refine ⟨encodedOperationDecodesToItself .rdcount s.ctx rfl, zext32 s.cfg.width s.count, ?_, fun hwf => ?_,
    fun hwf hlim => ?_⟩
  · rw [exec_eq_whenSelected, whenSelected_of_wellFormed _ rfl, Instr.effect, State.respondRead_eq]
    rfl
  · obtain ⟨-, -, hW, -⟩ := Config.wf_spec s.cfg hwf
    exact zext32_toNat hW s.count
  · obtain ⟨-, -, -, hL⟩ := Config.wf_spec s.cfg hwf
    exact zext32_of_lt _ _ (Nat.lt_of_le_of_lt hlim hL)

/-- Settles O56: the listed and the placed word by `step_word` and `step_withFetchWord`; the free move by the definition of
the step. -/
theorem stepRunsTheDecodedInstruction : Obligations.StepRunsTheDecodedInstruction := by
  refine ⟨fun s w rest i => step_word, fun s nbits w i => step_withFetchWord nbits, fun nbits w i h => ?_,
    fun s hs => ?_⟩
  · obtain ⟨hw, hdec⟩ := decodeTableWord_eq_some h
    exact step_withFetchWord nbits hw rfl hdec
  · simp only [step, stepOnce, hs]

end Sys2Proof
end

section
/-! SUPPORT. A LINE step, case by case: it latches an edge exactly on a falling edge while ARMED (R80, R81), and any number of
LINE steps in a row latch at most one (R165). -/

namespace Sys2Proof.Machine

/-- An operation asked for where its condition holds completes with its effect. -/
theorem exec_of_wellFormed {i : Instr} {s : State} (h : i.wellFormedIn s.ctx = true) : exec i s = .next (i.effect s) :=
  (exec_next_iff i s _).mpr ⟨h, rfl⟩

/-- A falling edge while ARMED is latched (R81). -/
theorem State.sampleLine_of_latched {s : State} {v : Bool} (h : s.edgePrev = true ∧ v = false ∧ s.life = .armed) :
    s.sampleLine v = { s with edgePrev := v, pend := true } := by
  rw [State.sampleLine_eq]
  simp [h]

/-- A level that makes no falling edge, or one outside ARMED, leaves `PEND` as it is (R80). -/
theorem State.sampleLine_of_not_latched {s : State} {v : Bool}
    (h : ¬(s.edgePrev = true ∧ v = false ∧ s.life = .armed)) : s.sampleLine v = { s with edgePrev := v } := by
  have hlatch : (s.edgePrev && !v && decide (s.life = .armed)) = false := by simpa using h
  rw [State.sampleLine_eq, hlatch, Bool.or_false]

/-- Sampling one level and then the others latches an edge exactly when the whole list holds a fall (R81, R165). -/
theorem State.sampleLine_pend_or_hasFall (s : State) (v : Bool) (rest : List Bool) :
    ((s.sampleLine v).pend || (decide ((s.sampleLine v).life = .armed) && hasFall (s.sampleLine v).edgePrev rest)) =
      (s.pend || (decide (s.life = .armed) && hasFall s.edgePrev (v :: rest))) := by
  have hmerge : ∀ pend fall armed later : Bool,
      ((pend || (fall && armed)) || (armed && later)) = (pend || (armed && (fall || later))) := by decide
  exact hmerge s.pend (s.edgePrev && !v) (decide (s.life = .armed)) (hasFall v rest)

end Sys2Proof.Machine
end

section
/-! Proofs of the LINE family (spec/40_line_events.md): the edge detector, the pending latch, and edges that merge. -/

namespace Sys2Proof

open Machine

/-- Settles O10: by induction over the levels; after the first, the rest adds its own falls to the same latch
(`State.sampleLine_pend_or_hasFall`). -/
theorem fallingEdgesMergeIntoOnePending : Obligations.FallingEdgesMergeIntoOnePending := by
  intro levels
  induction levels with
  | nil =>
    intro s
    simp [runStims, lastLevel, hasFall]
  | cons v rest ih =>
    intro s
    simp only [List.map_cons, runStims, execStim_line_eq]
    rw [ih, State.sampleLine_pend_or_hasFall]
    rfl

/-- Settles O6: every LINE word names its step, which samples the line; `PEND` by whether an edge is latched. -/
theorem lineStepFollowsTheLevel : Obligations.LineStepFollowsTheLevel := by
  intro s e v
  refine ⟨decode_of_ofWord (ofWord_stimWord_line e v) s.ctx, ?_⟩
  rw [execStim_line_eq]
  split
  · next h => rw [State.sampleLine_of_latched h]
  · next h => rw [State.sampleLine_of_not_latched h]

/-- Settles O7: `LINE.FALL` samples the level 0, which is latched exactly while ARMED; the latched edge enables SEQ in
IDLE (R90). -/
theorem fallingEdgeIsLatchedWhileArmed : Obligations.FallingEdgeIsLatchedWhileArmed := by
  intro s hprev
  have hexec : exec .lineFall s = .next (s.sampleLine false) := exec_of_wellFormed hprev
  refine ⟨encodedOperationDecodesToItself .lineFall s.ctx hprev, fun harmed => ⟨?_, ?_⟩, fun hnot => ?_⟩
  · rw [hexec, State.sampleLine_of_latched ⟨hprev, rfl, harmed⟩]
  · exact (State.seqEnabled_iff _).mpr (.inr ⟨rfl, rfl, harmed⟩)
  · rw [hexec, State.sampleLine_of_not_latched fun ⟨_, _, harmed⟩ => hnot harmed]

/-- Settles O8: `LINE.RISE` samples the level 1, which is never latched, and leaves the condition of `LINE.FALL`. -/
theorem risingEdgeWritesOnlyEdgePrev : Obligations.RisingEdgeWritesOnlyEdgePrev := by
  intro s hprev
  have hwf : Instr.lineRise.wellFormedIn s.ctx = true := by simp [hprev]
  have hexec : exec .lineRise s = .next (s.sampleLine true) := exec_of_wellFormed hwf
  refine ⟨encodedOperationDecodesToItself .lineRise s.ctx hwf, ?_, encodedOperationDecodesToItself .lineFall _ rfl⟩
  rw [hexec, State.sampleLine_of_not_latched (by simp)]

/-- Settles O9: both rows sample the level already held (`State.sampleLine_of_hold`). -/
theorem lineHoldChangesNothing : Obligations.LineHoldChangesNothing := by
  intro s
  refine ⟨fun hprev => ?_, fun hprev => ?_⟩
  · have hwf : Instr.lineHold0.wellFormedIn s.ctx = true := by simp [hprev]
    have hexec : exec .lineHold0 s = .next (s.sampleLine false) := exec_of_wellFormed hwf
    exact ⟨encodedOperationDecodesToItself .lineHold0 s.ctx hwf, by rw [hexec, State.sampleLine_of_hold hprev]⟩
  · have hexec : exec .lineHold1 s = .next (s.sampleLine true) := exec_of_wellFormed hprev
    exact ⟨encodedOperationDecodesToItself .lineHold1 s.ctx hprev, by rw [hexec, State.sampleLine_of_hold hprev]⟩

end Sys2Proof
end

section
/-! SUPPORT. The word of a SEQ step as the statements write it (R60), what a write to the indicator records, and lists of SEQ
steps (R90 to R98). -/

namespace Sys2Proof

open Machine

/-- Bit 16 carries `E` and the low 16 bits carry `D`; the rest of a SEQ word is 0 (R60). -/
theorem seqWord_eq (e : Bool) (d : Sample) :
    (if e then 0x10000#20 else 0x00000#20) ||| d.setWidth 20 = stimWord 0#2 e d := by
  rw [stimWord, BitVec.append_def, BitVec.setWidth'_eq]
  cases e <;> rfl

/-- The SEQ word with the draw `D` 0 (R60). -/
theorem seqWord_zero_eq (e : Bool) : (if e then 0x10000#20 else 0x00000#20) = stimWord 0#2 e 0 := by
  simpa using seqWord_eq e 0

namespace Machine

/-- SEQ is not enabled exactly where its stimulus is `SEQ.NONE` (R90). -/
theorem State.seqEnabled_eq_false_iff (s : State) :
    s.seqEnabled = false ↔ Instr.seqNone.wellFormedIn s.ctx = true := by
  rw [← Bool.not_eq_true, State.seqEnabled_iff, wellFormedIn_seqNone]
  tauto

/-- Where SEQ is not enabled every SEQ stimulus selects `SEQ.NONE` (R64, R90). -/
theorem selectSeq_of_not_enabled {s : State} (h : s.seqEnabled = false) (e : Bool) (d : Sample) :
    selectSeq e d s.ctx = .seqNone := by
  obtain ⟨hphase, hnot⟩ := (wellFormedIn_seqNone s).mp ((State.seqEnabled_eq_false_iff s).mp h)
  rw [selectSeq, State.ctx_phase, hphase]
  refine if_neg fun hon => ?_
  obtain ⟨hpend, hl⟩ := Bool.and_eq_true_iff.mp hon
  exact hnot ⟨hpend, of_decide_eq_true hl⟩

/-- `IndWrite(v)`: a failed write sets `IFAIL`, any other leaves it (R46, R93, R95). -/
theorem State.indWrite_ifail_set_or_kept (s : State) (v e : Bool) :
    s.indWrite v e = { s with ind := v, ifail := if e then true else s.ifail, trace := s.trace ++ [.ind v] } := by
  rw [State.indWrite_eq]
  cases e <;> simp

/-- `DISPATCH` at the limit, where the trigger is armed, is the disarm primitive, which clears `PEND` itself (R91, R92). -/
theorem State.takeEvent_of_atLimit_armed {s : State} (e : Bool) (hlim : s.atLimit = true) (hl : s.life = .armed) :
    s.takeEvent e = { s with pend := false, life := if e then .faulted else .disarmed,
                             trace := s.trace ++ [if e then .fault else .disarmed] } := by
  rw [State.takeEvent_of_atLimit s e hlim]
  exact State.disarm_of_armed _ e hl

/-- A run begins with its first step. -/
theorem runStims_cons {st : Stim} {s t : State} (rest : List Stim) (h : execStim st s = .next t) :
    runStims (st :: rest) s = runStims rest t := by
  rw [runStims, h]

/-- SEQ stimuli do nothing, however many, where SEQ is not enabled (R90). -/
theorem runStims_seq_of_not_enabled {s : State} (h : s.seqEnabled = false) (more : List (Bool × Sample)) :
    runStims (more.map (fun p => Stim.seq p.1 p.2)) s = .next s := by
  induction more with
  | nil => rfl
  | cons p rest ih => rwa [List.map_cons, runStims_cons _ (execStim_seq_of_not_enabled s p.1 p.2 h)]

end Machine

end Sys2Proof
end

section
/-! SUPPORT. What the micro-ops pass through: the registers that LINE, `ARM` and `DISARM` write (R98). -/

namespace Sys2Proof.Machine

/-- The state with other contents in the registers that LINE, `ARM` and `DISARM` write, and in the trace (R22). -/
def State.withArming (life : Life) (pend edgePrev : Bool) (trace : List Action) (s : State) : State :=
  { s with life := life, pend := pend, edgePrev := edgePrev, trace := trace }

/-- A micro-op keeps `LIFE`, `PEND` and `EDGE_PREV`, and does the same to the rest whatever they hold (R93 to R97). -/
theorem microOp_passes_arming {s : State} (e : Bool) (d : Sample) (hp : s.phase ≠ .idle) :
    ∃ t, execStim (.seq e d) s = .next t ∧ t.life = s.life ∧ t.pend = s.pend ∧ t.edgePrev = s.edgePrev ∧
      ∀ life pend edgePrev tr, ∃ u, execStim (.seq e d) (s.withArming life pend edgePrev tr) = .next u ∧
        ({ u with trace := [] } : State) = t.withArming life pend edgePrev [] := by
  cases h : s.phase with
  | idle => exact absurd h hp
  | hi => exact ⟨_, execStim_seq_hi s e d h, rfl, rfl, rfl, fun _ _ _ _ => ⟨_, execStim_seq_hi _ e d h, rfl⟩⟩
  | inc => exact ⟨_, execStim_seq_inc s e d h, rfl, rfl, rfl, fun _ _ _ _ => ⟨_, execStim_seq_inc _ e d h, rfl⟩⟩
  | lo => exact ⟨_, execStim_seq_lo s e d h, rfl, rfl, rfl, fun _ _ _ _ => ⟨_, execStim_seq_lo _ e d h, rfl⟩⟩
  | smp => exact ⟨_, execStim_seq_smp s e d h, rfl, rfl, rfl, fun _ _ _ _ => ⟨_, execStim_seq_smp _ e d h, rfl⟩⟩
  | rpt => exact ⟨_, execStim_seq_rpt s e d h, rfl, rfl, rfl, fun _ _ _ _ => ⟨_, execStim_seq_rpt _ e d h, rfl⟩⟩

/-- A LINE step, an `ARM` or a `DISARM` writes only these registers, and what it writes depends on them alone
(R80, R112, R113). -/
theorem execStim_eq_withArming {st : Stim} {v e : Bool}
    (hst : st = .line v ∨ st = .host e 0b001#3 ∨ st = .host e 0b010#3) {s t : State} (hlife : t.life = s.life)
    (hpend : t.pend = s.pend) (hedge : t.edgePrev = s.edgePrev) :
    ∃ life pend edgePrev tr tr', execStim st s = .next (s.withArming life pend edgePrev tr) ∧
      execStim st t = .next (t.withArming life pend edgePrev tr') := by
  rcases hst with rfl | rfl | rfl
  · refine ⟨s.life, _, v, s.trace, t.trace, execStim_line_eq s v, (execStim_line_eq t v).trans ?_⟩
    rw [State.sampleLine_eq, hlife, hpend, hedge]
    rfl
  · refine ⟨s.arm.life, s.pend, s.edgePrev, _, t.trace ++ [.rsp 0 false], execStim_arm s e, (execStim_arm t e).trans ?_⟩
    rw [State.arm, hlife, ← hpend, ← hedge]
    rfl
  · rw [execStim_disarm, execStim_disarm]
    by_cases hl : s.life = .armed
    · rw [State.disarm_of_armed s e hl, State.disarm_of_armed t e (hlife.trans hl), ← hedge]
      exact ⟨_, _, _, _, _, rfl, rfl⟩
    · rw [State.disarm_of_not_armed s e hl, State.disarm_of_not_armed t e (hlife ▸ hl)]
      refine ⟨s.life, s.pend, s.edgePrev, _, t.trace ++ [.rsp 0 false], rfl, ?_⟩
      rw [← hlife, ← hpend, ← hedge]
      rfl

end Sys2Proof.Machine
end

section
/-! SUPPORT. The callback's actions in a trace of blocks, counted by where the trace stands (V3, R101). -/

namespace Sys2Proof.Machine

/-- The actions of the block in progress that are already emitted (V3). -/
def BlockPos.actions : BlockPos → List Action
  | .start => []
  | .pulseHigh => [.ind true]
  | .pulseLow => [.ind true, .ind false]
  | .sampled => [.ind true, .ind false, .smpreq]

/-- How many reports a trace holds. -/
def reportCount (tr : List Action) : Nat := (tr.filter (fun a => (reportOf [a]).isSome)).length

@[simp] theorem reportCount_append_singleton (tr : List Action) (a : Action) :
    reportCount (tr ++ [a]) = reportCount tr + if (reportOf [a]).isSome then 1 else 0 := by
  cases h : (reportOf [a]).isSome <;> simp [reportCount, h]

/-- The actions that each block holds once, beside its report. -/
def Action.oncePerBlock (b : Action) : Prop := b = .ind true ∨ b = .ind false ∨ b = .smpreq

/-- One more action read by the recogniser: it is the next one of the block in progress, or its report, which closes the
block, or no action of a callback. -/
theorem scanAction_eq_some {p : Option (BlockPos × Nat)} {a : Action} {pos : BlockPos} {n : Nat}
    (h : scanAction p a = some (pos, n)) :
    (a.ofCallback = false ∧ p = some (pos, n)) ∨
    (∃ pos', p = some (pos', n) ∧ pos.actions = pos'.actions ++ [a] ∧ a.oncePerBlock) ∨
    (∃ k, p = some (.sampled, k) ∧ (∃ r, a = .rpt r) ∧ pos = .start ∧ n = k + 1) := by
  cases ha : a.ofCallback with
  | false => exact .inl ⟨rfl, scanAction_of_not_ofCallback p ha ▸ h⟩
  | true =>
    right
    cases a with
    | rsp | disarmed | fault => cases ha
    | ind v =>
      left
      cases v <;> rcases p with _ | ⟨_ | _ | _ | _, k⟩ <;> cases h
      · exact ⟨.pulseHigh, rfl, rfl, .inr (.inl rfl)⟩
      · exact ⟨.start, rfl, rfl, .inl rfl⟩
    | smpreq =>
      left
      rcases p with _ | ⟨_ | _ | _ | _, k⟩ <;> cases h
      exact ⟨.pulseLow, rfl, rfl, .inr (.inr rfl)⟩
    | rpt r =>
      right
      rcases p with _ | ⟨_ | _ | _ | _, k⟩
      case some.sampled =>
        by_cases hindex : r.index.toNat = k + 1
        · rw [scanAction, if_pos hindex] at h
          cases h
          exact ⟨k, rfl, ⟨r, rfl⟩, rfl, rfl⟩
        · rw [scanAction, if_neg hindex] at h
          cases h
      all_goals cases h

/-- A trace that stands at a position of its block after `n` reports holds each of the callback's other actions once per
closed block, and those of the block in progress. -/
theorem counts_of_scanTrace {tr : List Action} {pos : BlockPos} {n : Nat} (h : scanTrace tr = some (pos, n)) :
    reportCount tr = n ∧ ∀ b : Action, b.oncePerBlock → tr.count b = n + pos.actions.count b := by
  induction tr using List.reverseRecOn generalizing pos n with
  | nil => cases h; exact ⟨rfl, fun _ _ => rfl⟩
  | append_singleton tr a ih =>
    rw [scanTrace_append] at h
    rcases scanAction_eq_some h with ⟨ha, hp⟩ | ⟨pos', hp, hpos, ha⟩ | ⟨k, hp, ⟨r, rfl⟩, rfl, rfl⟩
    all_goals
      obtain ⟨hreports, hcount⟩ := ih hp
      rw [reportCount_append_singleton, hreports]
    · have hne : ∀ b : Action, b.oncePerBlock → a ≠ b := by
        rintro b (rfl | rfl | rfl) rfl <;> cases ha
      have hnone : (reportOf [a]).isSome = false := by
        cases a with
        | rpt r => cases ha
        | _ => rfl
      refine ⟨by simp [hnone], fun b hb => ?_⟩
      rw [List.count_append, hcount b hb, List.count_singleton, beq_false_of_ne (hne b hb)]
      rfl
    · have hnone : (reportOf [a]).isSome = false := by
        rcases ha with rfl | rfl | rfl <;> rfl
      refine ⟨by simp [hnone], fun b hb => ?_⟩
      rw [List.count_append, hcount b hb, hpos, List.count_append, Nat.add_assoc]
    · refine ⟨rfl, fun b hb => ?_⟩
      have honce : BlockPos.sampled.actions.count b = 1 ∧ [Action.rpt r].count b = 0 := by
        rcases hb with rfl | rfl | rfl <;> exact ⟨rfl, rfl⟩
      rw [List.count_append, hcount b hb, honce.1, honce.2]
      rfl

/-- In IDLE every block is closed, and each is counted: `COUNT` is the number of reports, and of each of the callback's
other actions (V3, V10). -/
theorem counts_of_inv_of_idle {s : State} (h : Inv s) (hp : s.phase = .idle) :
    reportCount s.trace = s.count.toNat ∧ ∀ b : Action, b.oncePerBlock → s.trace.count b = s.count.toNat := by
  obtain ⟨-, -, -, ⟨n, hscan, hn⟩, -⟩ := (inv_iff s).mp h
  rw [hp] at hscan hn
  obtain rfl : n = s.count.toNat := hn
  exact counts_of_scanTrace hscan

end Sys2Proof.Machine
end

section
/-! SUPPORT. The counting law as an invariant of runs without `DISARM` (R101): what `COUNT`, `PHASE` and `LIFE` say about the
number of events delivered so far. -/

namespace Sys2Proof

open Machine

/-- How many events an operation delivers (R101). -/
def Instr.deliveries : Instr → Nat
  | .dispatch _ => 1
  | _ => 0

/-- No operation writes the parameters (R5). -/
theorem Instr.effect_cfg (i : Instr) (s : State) : (i.effect s).cfg = s.cfg := by
  cases i <;> simp [Instr.effect]

/-- A step that selects the operation `DISARM` is the host's `DISARM`. -/
theorem Machine.isDisarm_of_select {st : Stim} {c : Ctx} {e : Bool} (h : select st c = .disarm e) :
    st.isDisarm = true := by
  cases st with
  | line v =>
    simp only [select, selectLine] at h
    split at h <;> cases h
  | seq e' d =>
    simp only [select, selectSeq] at h
    split at h
    case h_1 => split at h <;> cases h
    all_goals cases h
  | host e' cmd =>
    rcases cmd_cases cmd with rfl | rfl | rfl | rfl | rfl | rfl | rfl | rfl
    case inr.inr.inl => rfl
    all_goals cases h

namespace Machine

/-- The events of a run are those its first step delivers and those of the rest. -/
theorem dispatches_cons {st : Stim} {s t : State} (rest : List Stim) (h : execStim st s = .next t) :
    dispatches (st :: rest) s = (select st s.ctx).deliveries + dispatches rest t := by
  rw [dispatches, h]
  cases select st s.ctx <;> rfl

/-- By how much the number of accepted events is ahead of `COUNT` at a phase (V9). -/
def Phase.uncounted : Phase → Nat
  | .idle => 0
  | .hi => 1
  | .inc => 1
  | .lo => 0
  | .smp => 0
  | .rpt => 0

/-- The events counted and the one to be counted are at most `LIMIT` (V1, V9). -/
theorem count_add_uncounted_le_of_inv {s : State} (h : Inv s) :
    s.count.toNat + s.phase.uncounted ≤ s.limit.toNat := by
  obtain ⟨-, hlim, -, -, -, -, -, -, hbelow, -⟩ := (inv_iff s).mp h
  have hle : s.count.toNat ≤ s.limit.toNat := hlim
  cases hp : s.phase with
  | hi => exact hbelow (.inl hp)
  | inc => exact hbelow (.inr hp)
  | _ => exact hle

/-- `n` events were delivered since the trigger was armed: all of them accepted while it is armed; once it is over, all but
the last, which found `COUNT` at `LIMIT` (R91, R101). -/
def Delivered (n : Nat) (s : State) : Prop :=
  (s.life = .armed ∧ n = s.count.toNat + s.phase.uncounted) ∨
  ((s.life = .disarmed ∨ s.life = .faulted) ∧ s.phase = .idle ∧ s.count = s.limit ∧ n = s.limit.toNat + 1)

/-- Whether `n` events were delivered is read off `LIFE`, `COUNT`, `LIMIT` and `PHASE` alone. -/
theorem delivered_congr {n : Nat} {s t : State} (h : Delivered n s) (hlife : t.life = s.life) (hcount : t.count = s.count)
    (hlimit : t.limit = s.limit) (hphase : t.phase = s.phase) : Delivered n t := by
  unfold Delivered
  rw [hlife, hcount, hlimit, hphase]
  exact h

/-- A step of the callback in progress delivers no event where it keeps `LIFE` and the number of events accepted. -/
theorem delivered_of_microOp {n : Nat} {s t : State} (h : Delivered n s) (hp : s.phase ≠ .idle) (hlife : t.life = s.life)
    (hsum : t.count.toNat + t.phase.uncounted = s.count.toNat + s.phase.uncounted) : Delivered n t := by
  rcases h with ⟨harmed, hn⟩ | ⟨-, hidle, -⟩
  · exact .inl ⟨hlife.trans harmed, hn.trans hsum.symm⟩
  · exact absurd hidle hp

/-- `DISPATCH` delivers one event: accepted below the limit, and at the limit the one that ends the run (R91). -/
theorem delivered_takeEvent {n : Nat} {s : State} (h : Delivered n s) (hInv : Inv s) (e : Bool) (hp : s.phase = .idle)
    (hl : s.life = .armed) : Delivered (n + 1) (s.takeEvent e) := by
  obtain ⟨-, hlim, -⟩ := (inv_iff s).mp hInv
  obtain rfl : n = s.count.toNat := by simpa [Delivered, hl, hp, Phase.uncounted] using h
  cases hat : s.atLimit with
  | false =>
    rw [State.takeEvent_of_below s e hat]
    exact .inl ⟨hl, rfl⟩
  | true =>
    have heq : s.count = s.limit := BitVec.le_antisymm hlim (s.atLimit_iff.mp hat)
    rw [State.takeEvent_of_atLimit_armed e hat hl]
    refine .inr ⟨?_, hp, heq, congrArg (·.toNat + 1) heq⟩
    cases e
    · exact .inl rfl
    · exact .inr rfl

/-- Every operation but `DISARM` keeps the count of the events delivered. -/
theorem delivered_effect {n : Nat} {s : State} {i : Instr} (h : Delivered n s) (hInv : Inv s)
    (hwf : i.wellFormedIn s.ctx = true) (hi : ∀ e, i ≠ .disarm e) : Delivered (n + i.deliveries) (i.effect s) := by
  cases i with
  | dispatch e =>
    obtain ⟨hp, -, hl⟩ := (wellFormedIn_dispatch s e).mp hwf
    exact delivered_takeEvent h hInv e hp hl
  | hi | lo | smp | rpt =>
    have hp := of_decide_eq_true hwf
    rw [State.ctx_phase] at hp
    exact delivered_of_microOp h (by simp [hp]) (by simp [Instr.effect]) (by simp [Instr.effect, hp, Phase.uncounted])
  | inc =>
    have hp := (wellFormedIn_inc s).mp hwf
    obtain ⟨hincr, -⟩ := incr_eq_of_inv hInv hp
    exact delivered_of_microOp h (by simp [hp]) rfl (by simp [Instr.effect, hp, Phase.uncounted, hincr])
  | arm =>
    have hstarted : s.life ≠ .unarmed := by
      intro hl
      simp [Delivered, hl] at h
    exact delivered_congr h (by simp [Instr.effect, hstarted]) rfl rfl rfl
  | disarm e => exact absurd rfl (hi e)
  | seqNone => exact h
  | _ =>
    exact delivered_congr h (by simp [Instr.effect]) (by simp [Instr.effect]) (by simp [Instr.effect, State.limit])
      (by simp [Instr.effect])

/-- The counting law along a run without `DISARM`, from any state that meets the invariant. -/
theorem delivered_runStims {n : Nat} {s : State} (stims : List Stim) (h : Delivered n s) (hInv : Inv s)
    (hstims : ∀ st ∈ stims, st.isDisarm = false) :
    ∃ t, runStims stims s = .next t ∧ Delivered (n + dispatches stims s) t ∧ Inv t ∧ t.cfg = s.cfg := by
  induction stims generalizing n s with
  | nil => exact ⟨s, rfl, h, hInv, rfl⟩
  | cons st rest ih =>
    obtain ⟨hst, hrest⟩ := List.forall_mem_cons.mp hstims
    have hexec := execStim_eq st s
    have hnot : ∀ e, select st s.ctx ≠ .disarm e := fun e hsel => by simp [isDisarm_of_select hsel] at hst
    have hstep := delivered_effect h hInv (select_wellFormedIn st s.ctx) hnot
    obtain ⟨t, ht, hdel, hInv', hcfg⟩ := ih hstep (inv_exec hInv hexec) hrest
    rw [runStims_cons rest hexec, dispatches_cons rest hexec, ← Nat.add_assoc]
    exact ⟨t, ht, hdel, hInv', hcfg.trans (Instr.effect_cfg _ s)⟩

/-- `INIT` arms the trigger, and no event is delivered yet, whatever the host has done of the contract (R71, R162). -/
theorem delivered_zero_of_init {c : Config} (hwf : c.wf = true) (u : Setup) :
    ∃ s, runStims [.host false 0b001#3] { State.resetWith c with setup := u } = .next s ∧ s.cfg = c ∧ Inv s ∧
      Delivered 0 s :=
  ⟨_, (runStims_cons [] (execStim_arm _ false)).trans rfl, rfl,
    inv_respond (inv_arm (inv_of_own_fields (inv_resetWith hwf) u [] 0)) 0 false, .inl ⟨rfl, rfl⟩⟩

/-- What the number of events delivered says of `LIFE`, and in IDLE of `COUNT` (R101). -/
theorem life_count_of_delivered {n : Nat} {s : State} (h : Delivered n s) (hInv : Inv s) :
    n ≤ s.limit.toNat + 1 ∧ (s.life = .armed ↔ n ≤ s.limit.toNat) ∧
      (s.limit.toNat < n → s.life = .disarmed ∨ s.life = .faulted) ∧
      (s.phase = .idle → s.count.toNat = min n s.limit.toNat) := by
  have hle := count_add_uncounted_le_of_inv hInv
  rcases h with ⟨harmed, rfl⟩ | ⟨hover, -, hcount, rfl⟩
  · refine ⟨by omega, iff_of_true harmed hle, fun hlt => absurd hle (by omega), fun hp => ?_⟩
    have hnone : s.phase.uncounted = 0 := by rw [hp, Phase.uncounted]
    omega
  · have hnot : s.life ≠ .armed := by rcases hover with hl | hl <;> simp [hl]
    exact ⟨le_rfl, iff_of_false hnot (by omega), fun _ => hover, fun _ => by rw [hcount]; omega⟩

end Machine

end Sys2Proof
end

section
/-! Proofs of the sequencer family (spec/41_sequencer.md): when SEQ is enabled, dispatch and disarm, the micro-ops, and the
callback they make up. -/

namespace Sys2Proof

open Machine

/-- Settles O12: the formula of R90; no stimulus selects anything but `SEQ.NONE` outside it (`selectSeq_of_not_enabled`), and
what is selected is well-formed (`select_wellFormedIn`). -/
theorem seqStimulusIsANoOpWhenNotEnabled : Obligations.SeqStimulusIsANoOpWhenNotEnabled := by
  intro s e d
  rw [decode_stimWord_seq]
  refine ⟨s.seqEnabled_iff, fun hoff => ⟨?_, ?_⟩, fun hdec => ?_⟩
  · rw [selectSeq_of_not_enabled hoff]
  · exact exec_of_wellFormed (s.seqEnabled_eq_false_iff.mp hoff)
  · have hsel : select (.seq e d) s.ctx = .dispatch e := Except.ok.inj hdec
    exact (wellFormedIn_dispatch s e).mp (hsel ▸ select_wellFormedIn (.seq e d) s.ctx)

/-- Settles O14: the two equations of the primitive; after the first the trigger is no longer armed. -/
theorem disarmPrimitiveActsOnce : Obligations.DisarmPrimitiveActsOnce := by
  intro s e e'
  refine ⟨s.disarm_of_armed e, s.disarm_of_not_armed e, State.disarm_of_not_armed _ e' ?_⟩
  rw [State.disarm_life]
  split
  · cases e <;> decide
  · assumption

/-- Settles O13: entry below and at the limit (`takeEvent_of_below`, `takeEvent_of_atLimit_armed`). -/
theorem dispatchChecksTheLimit : Obligations.DispatchChecksTheLimit := by
  intro s e hphase hpend hl
  have hwf : (Instr.dispatch e).wellFormedIn s.ctx = true := (wellFormedIn_dispatch s e).mpr ⟨hphase, hpend, hl⟩
  have hexec : exec (.dispatch e) s = .next (s.takeEvent e) := exec_of_wellFormed hwf
  refine ⟨seqWord_zero_eq e ▸ encodedOperationDecodesToItself (.dispatch e) s.ctx hwf, fun hbelow => ?_, fun hat => ?_⟩
  · rw [hexec, State.takeEvent_of_below s e (s.atLimit_eq_false_iff.mpr hbelow)]
  · rw [hexec, State.takeEvent_of_atLimit_armed e (s.atLimit_iff.mpr hat) hl]

/-- Settles O21: after the disarming `DISPATCH` SEQ is not enabled, so the rest does nothing
(`runStims_seq_of_not_enabled`). -/
theorem disarmingEventIsDispatchAlone : Obligations.DisarmingEventIsDispatchAlone := by
  intro s e d more hphase hpend hl hat
  rw [runStims_cons _ (execStim_seq_dispatch s e d hphase hpend hl),
    State.takeEvent_of_atLimit_armed e (s.atLimit_iff.mpr hat) hl]
  refine runStims_seq_of_not_enabled ?_ more
  rw [State.seqEnabled_eq_false_iff, wellFormedIn_seqNone]
  exact ⟨hphase, by simp⟩

/-- Settles O20: the six steps in order; below the limit of legal parameters `INC` does not wrap. -/
theorem acceptedEventPlaysTheWholeCallback : Obligations.AcceptedEventPlaysTheWholeCallback := by
  intro s e0 e1 e2 e3 x2 x5 d d0 d1 d2 d3 d5 hwf hphase hpend hl hbelow hind hsval hsfail hifail
  have hcount : incr s.cfg.width s.count = s.count + 1 := by
    obtain ⟨-, -, hW, hL⟩ := Config.wf_spec s.cfg hwf
    have hlt : s.count.toNat < s.cfg.eventLimit.toNat := hbelow
    exact incr_eq_add_one _ _ hW (by omega)
  rw [runStims_cons _ (execStim_seq_dispatch s e0 d0 hphase hpend hl),
    State.takeEvent_of_below s e0 (s.atLimit_eq_false_iff.mpr hbelow),
    runStims_cons _ (execStim_seq_hi _ e1 d1 rfl), runStims_cons _ (execStim_seq_inc _ x2 d2 rfl),
    runStims_cons _ (execStim_seq_lo _ e2 d3 rfl), runStims_cons _ (execStim_seq_smp _ e3 d rfl),
    runStims_cons _ (execStim_seq_rpt _ x5 d5 rfl), runStims]
  simp [State.reportTuple, failField, hcount, hphase, hind, hsval, hsfail, hifail]

/-- Settles O22: the other step writes only registers that the micro-op passes through. -/
theorem callbackCommutesWithLineAndArming : Obligations.CallbackCommutesWithLineAndArming := by
  intro s e e' v d other hp hother
  obtain ⟨t, hseq, hlife, hpend, hedge, hpass⟩ := microOp_passes_arming e d hp
  obtain ⟨life, pend, edgePrev, tr, tr', hfirst, hsecond⟩ := execStim_eq_withArming hother hlife hpend hedge
  obtain ⟨u, hseq', hu⟩ := hpass life pend edgePrev tr
  exact ⟨_, u, by rw [runStims_cons _ hseq, runStims_cons _ hsecond, runStims],
    by rw [runStims_cons _ hfirst, runStims_cons _ hseq', runStims], hu.symm⟩

/-- Settles O23: the phase of each operation's `when` condition, and the phase its effect leaves. -/
theorem phaseMovesOnlyAsListed : Obligations.PhaseMovesOnlyAsListed := by
  refine ⟨fun s => ⟨_, rfl, rfl⟩, fun i s t ht => ?_⟩
  obtain ⟨hwf, rfl⟩ := (exec_next_iff i s t).mp ht
  cases i with
  | dispatch e =>
    obtain ⟨hphase, -, -⟩ := (wellFormedIn_dispatch s e).mp hwf
    refine ⟨hphase, ?_⟩
    by_cases hbelow : s.count < s.limit
    · simp [Instr.effect, hbelow, s.atLimit_eq_false_iff.mpr hbelow]
    · simp [Instr.effect, hbelow, s.atLimit_iff.mpr (BitVec.not_lt.mp hbelow), hphase]
  | hi e => exact ⟨(wellFormedIn_hi s e).mp hwf, rfl⟩
  | inc => exact ⟨(wellFormedIn_inc s).mp hwf, rfl⟩
  | lo e => exact ⟨(wellFormedIn_lo s e).mp hwf, rfl⟩
  | smp e d => exact ⟨(wellFormedIn_smp s e d).mp hwf, rfl⟩
  | rpt => exact ⟨(wellFormedIn_rpt s).mp hwf, rfl⟩
  | _ => simp [Instr.effect]

/-- Settles O24: after `INIT` no event is delivered yet, and the law is kept along the run (`delivered_runStims`); in IDLE the
trace holds `COUNT` of each action (`counts_of_inv_of_idle`). -/
theorem countEqualsMinOfEventsAndLimit : Obligations.CountEqualsMinOfEventsAndLimit := by
  intro c u stims hwf hstims
  obtain ⟨s, hs, hcfg, hInv, hzero⟩ := delivered_zero_of_init hwf u
  obtain ⟨t, ht, hdel, hInv', hkept⟩ := delivered_runStims stims hzero hInv hstims
  have hlimit : t.limit = c.eventLimit := congrArg Config.eventLimit (hkept.trans hcfg)
  rw [Nat.zero_add] at hdel
  obtain ⟨hmax, harmed, hover, hcount⟩ := life_count_of_delivered hdel hInv'
  rw [hlimit] at hmax harmed hover hcount
  refine ⟨s, t, hs, ht, hmax, harmed, hover, fun hp => ?_⟩
  obtain ⟨hreports, hactions⟩ := counts_of_inv_of_idle hInv' hp
  rw [← hcount hp]
  exact ⟨rfl, hactions _ (.inl rfl), hactions _ (.inr (.inl rfl)), hactions _ (.inr (.inr rfl)), hreports⟩

/-- Settles O15: `IndWrite(1)` and the move to INC. -/
theorem hiStartsThePulse : Obligations.HiStartsThePulse := by
  intro s e hphase
  have hwf : (Instr.hi e).wellFormedIn s.ctx = true := (wellFormedIn_hi s e).mpr hphase
  refine ⟨seqWord_zero_eq e ▸ encodedOperationDecodesToItself (.hi e) s.ctx hwf, ?_⟩
  rw [exec_of_wellFormed hwf, Instr.effect, State.indWrite_ifail_set_or_kept]

/-- Settles O16: `COUNT + 1` on `W` bits, which is `COUNT + 1` where that fits (`incr_eq_add_one`). -/
theorem incAddsOneToCount : Obligations.IncAddsOneToCount := by
  intro s hphase
  have hwf : Instr.inc.wellFormedIn s.ctx = true := (wellFormedIn_inc s).mpr hphase
  refine ⟨encodedOperationDecodesToItself .inc s.ctx hwf, _, exec_of_wellFormed hwf, fun hcfg hfits => ?_⟩
  obtain ⟨-, -, hW, -⟩ := Config.wf_spec s.cfg hcfg
  exact ⟨incr_eq_add_one _ _ hW hfits, incr_toNat _ _ hW hfits⟩

/-- Settles O17: `IndWrite(0)` and the move to SMP. -/
theorem loEndsThePulse : Obligations.LoEndsThePulse := by
  intro s e hphase
  have hwf : (Instr.lo e).wellFormedIn s.ctx = true := (wellFormedIn_lo s e).mpr hphase
  refine ⟨seqWord_zero_eq e ▸ encodedOperationDecodesToItself (.lo e) s.ctx hwf, ?_⟩
  rw [exec_of_wellFormed hwf, Instr.effect, State.indWrite_ifail_set_or_kept]

/-- Settles O18: `SampleRead()` and the move to RPT. -/
theorem smpTakesOneReading : Obligations.SmpTakesOneReading := by
  intro s e d hphase
  have hwf : (Instr.smp e d).wellFormedIn s.ctx = true := (wellFormedIn_smp s e d).mpr hphase
  refine ⟨seqWord_eq e d ▸ encodedOperationDecodesToItself (.smp e d) s.ctx hwf, ?_⟩
  rw [exec_of_wellFormed hwf, Instr.effect, State.sampleRead_eq]

/-- Settles O19: the report and the return; back in IDLE a pending edge of an armed trigger enables SEQ (R90). -/
theorem rptReportsAndReturns : Obligations.RptReportsAndReturns := by
  intro s hphase
  have hwf : Instr.rpt.wellFormedIn s.ctx = true := (wellFormedIn_rpt s).mpr hphase
  exact ⟨encodedOperationDecodesToItself .rpt s.ctx hwf, _, exec_of_wellFormed hwf, rfl,
    fun hpend hl => (State.seqEnabled_iff _).mpr (.inr ⟨rfl, hpend, hl⟩)⟩

end Sys2Proof
end

section
/-! SUPPORT. HOST commands as the statements of spec/42_host_commands.md write them: `STATUS` as fields moved to their places
(R114), and the micro-ops from HI on, which a `DISARM` leaves to complete (R167). -/

namespace Sys2Proof.Machine

/-- `STATUS` as the disjunction of its fields, each moved to its place (R21, R114). -/
theorem State.status_eq_or (s : State) :
    s.status = s.life.code.setWidth 32 ||| (BitVec.ofBool s.pend).setWidth 32 <<< 2
      ||| (BitVec.ofBool s.ind).setWidth 32 <<< 3 ||| (BitVec.ofBool s.busyOut).setWidth 32 <<< 4
      ||| s.phase.code.setWidth 32 <<< 5 ||| (BitVec.ofBool s.edgePrev).setWidth 32 <<< 8
      ||| (BitVec.ofBool s.atLimit).setWidth 32 <<< 9 := by
  rw [← BitVec.setWidth_eq s.status]
  simp only [State.status, BitVec.setWidth_append_eq_shiftLeft_setWidth_or, BitVec.shiftLeft_or_distrib,
    ← BitVec.shiftLeft_add]
  simp only [Nat.reduceAdd, BitVec.setWidth_zero, BitVec.zero_shiftLeft, BitVec.zero_or]
  ac_rfl

/-- Below the limit of legal parameters `COUNT + 1` does not wrap (R100). -/
theorem State.incr_count_of_below {s : State} (hwf : s.cfg.wf = true) (hbelow : s.count < s.limit) :
    incr s.cfg.width s.count = s.count + 1 := by
  obtain ⟨-, -, hW, hL⟩ := Config.wf_spec s.cfg hwf
  have hlt : s.count.toNat < s.cfg.eventLimit.toNat := hbelow
  exact incr_eq_add_one _ _ hW (by omega)

/-- The micro-ops of an accepted event, from HI to the return, whatever `LIFE` and `PEND` are (R93 to R98, R167). -/
theorem runStims_microOps {s : State} (e1 e2 e3 : Bool) (d : Sample) (hwf : s.cfg.wf = true) (hphase : s.phase = .hi)
    (hbelow : s.count < s.limit) :
    runStims [.seq e1 0, .seq false 0, .seq e2 0, .seq e3 d, .seq false 0] s =
      .next { s with count := s.count + 1, phase := .idle, ind := false, sval := 0, sfail := false, ifail := false,
                     trace := s.trace ++ [.ind true, .ind false, .smpreq,
                       .rpt ⟨s.count + 1, failField e3 (s.ifail || e1 || e2), if e3 then 0 else d⟩] } := by
  rw [runStims_cons _ (execStim_seq_hi s e1 0 hphase), runStims_cons _ (execStim_seq_inc _ false 0 rfl),
    runStims_cons _ (execStim_seq_lo _ e2 0 rfl), runStims_cons _ (execStim_seq_smp _ e3 d rfl),
    runStims_cons _ (execStim_seq_rpt _ false 0 rfl), runStims]
  simp [State.reportTuple, State.incr_count_of_below hwf hbelow]

end Sys2Proof.Machine
end

section
/-! Proofs of the host command family (spec/42_host_commands.md): what each command answers and changes, and a `DISARM` in the
middle of a callback. -/

namespace Sys2Proof

open Machine

/-- Settles O39: the `DISARM` leaves all that the micro-ops read, so they run as without it (`runStims_microOps`); back in IDLE
the trigger is no longer armed, so SEQ is not enabled. -/
theorem disarmDoesNotCancelACallback : Obligations.DisarmDoesNotCancelACallback := by
  intro s e e1 e2 e3 d hwf hphase hl hbelow _ hifail
  rw [runStims_cons _ (execStim_disarm s e), State.disarm_of_armed s e hl]
  refine ⟨_, runStims_microOps e1 e2 e3 d hwf hphase hbelow, rfl, rfl, rfl, rfl, rfl, ?_, ?_⟩
  · rw [State.seqEnabled_eq_false_iff, wellFormedIn_seqNone]
    exact ⟨rfl, nofun⟩
  · simp [hifail, failField]

/-- Settles O25: the effect of `NOP` is its response. -/
theorem nopOnlyResponds : Obligations.NopOnlyResponds := fun s =>
  ⟨encodedOperationDecodesToItself .nop s.ctx rfl, exec_of_wellFormed rfl⟩

/-- Settles O26: by whether `LIFE` is UNARMED; the effect is `State.arm`, then the response. -/
theorem armOnlyFromUnarmed : Obligations.ArmOnlyFromUnarmed := by
  intro s
  have hexec : exec .arm s = .next (s.arm.respond 0 false) := exec_of_wellFormed rfl
  refine ⟨encodedOperationDecodesToItself .arm s.ctx rfl, fun hl => ?_, fun hl => ?_⟩
  · rw [hexec, State.arm, if_pos hl, State.respond_eq]
  · rw [hexec, State.arm, if_neg hl, State.respond_eq]

/-- Settles O27: the disarm primitive where it acts and where it does not, then the response. -/
theorem disarmCommand : Obligations.DisarmCommand := by
  intro s e
  have hword : (if e then 0x90002#20 else 0x80002#20) = encode (.disarm e) := by cases e <;> rfl
  have hexec : exec (.disarm e) s = .next ((s.disarm e).respond 0 false) := exec_of_wellFormed rfl
  refine ⟨hword ▸ encodedOperationDecodesToItself (.disarm e) s.ctx rfl, fun hl => ?_, fun hl => ?_⟩
  · rw [hexec, State.disarm_of_armed s e hl, State.respond_eq, List.append_assoc]
    rfl
  · rw [hexec, State.disarm_of_not_armed s e hl, State.respond_eq]

/-- Settles O28: the response carries `STATUS`, which is the disjunction of its fields (`State.status_eq_or`). -/
theorem rdstatusReadsTheFields : Obligations.RdstatusReadsTheFields := by
  intro s
  have hexec : exec .rdstatus s = .next (s.respond s.status false) := exec_of_wellFormed rfl
  refine ⟨encodedOperationDecodesToItself .rdstatus s.ctx rfl, ?_⟩
  rw [hexec, State.status_eq_or]
  rfl

/-- Settles O30: the response carries `zext_32(LIMIT)`, which is `LIMIT` itself for legal parameters. -/
theorem rdlimitReadsLimit : Obligations.RdlimitReadsLimit := by
  intro s
  refine ⟨encodedOperationDecodesToItself .rdlimit s.ctx rfl, zext32 s.cfg.width s.limit, exec_of_wellFormed rfl,
    fun hwf => ?_⟩
  obtain ⟨-, -, -, hL⟩ := Config.wf_spec s.cfg hwf
  exact zext32_of_lt _ _ hL

/-- Settles O31: the effect of each reserved opcode is its error response; the register number 3 names nothing. -/
theorem reservedOpcodesAnswerAnError : Obligations.ReservedOpcodesAnswerAnError := fun s =>
  ⟨encodedOperationDecodesToItself .rsv3 s.ctx rfl, encodedOperationDecodesToItself .rsv7 s.ctx rfl,
    exec_of_wellFormed rfl, exec_of_wellFormed rfl⟩

end Sys2Proof
end

section
/-! SUPPORT. Two steps that fall at the same instant, of which one samples a falling edge (R137). -/

namespace Sys2Proof.Machine

/-- Two steps in a row. -/
theorem runStims_pair {a b : Stim} {s t u : State} (ha : execStim a s = .next t) (hb : execStim b t = .next u) :
    runStims [a, b] s = .next u := by
  rw [runStims_cons _ ha, runStims_cons _ hb, runStims]

/-- A falling edge while ARMED, as a step (R81). -/
theorem execStim_fall_of_armed {s : State} (hprev : s.edgePrev = true) (hl : s.life = .armed) :
    execStim (.line false) s = .next { s with edgePrev := false, pend := true } := by
  rw [execStim_line_eq, State.sampleLine_of_latched ⟨hprev, rfl, hl⟩]

/-- The level 0 outside ARMED, as a step: nothing is latched (R80). -/
theorem execStim_low_of_not_armed {s : State} (hl : s.life ≠ .armed) :
    execStim (.line false) s = .next { s with edgePrev := false } := by
  rw [execStim_line_eq, State.sampleLine_of_not_latched fun ⟨_, _, harmed⟩ => hl harmed]

/-- The accepting `DISPATCH`, as a step (R91). -/
theorem execStim_seq_dispatch_of_below {s : State} (e : Bool) (d : Sample) (hphase : s.phase = .idle)
    (hpend : s.pend = true) (hl : s.life = .armed) (hbelow : s.count < s.limit) :
    execStim (.seq e d) s = .next { s with pend := false, phase := .hi } := by
  rw [execStim_seq_dispatch s e d hphase hpend hl, State.takeEvent_of_below s e (s.atLimit_eq_false_iff.mpr hbelow)]

/-- `ARM` from UNARMED, as a step (R112). -/
theorem execStim_arm_of_unarmed {s : State} (e : Bool) (hl : s.life = .unarmed) :
    execStim (.host e 0b001#3) s = .next { s with life := .armed, trace := s.trace ++ [.rsp 0 false] } := by
  rw [execStim_arm, State.arm, if_pos hl, State.respond_eq]

/-- The step makes an armed trigger in `s` end: a `DISARM`, or a `DISPATCH` at the limit (R13, R92). -/
def Stim.Disarms (st : Stim) (s : State) : Prop :=
  (∃ e, st = .host e 0b010#3) ∨
    ∃ e d, st = .seq e d ∧ s.phase = .idle ∧ s.pend = true ∧ s.limit ≤ s.count

/-- A disarming step ends the trigger, clears `PEND`, and writes nothing else but the trace (R91, R92, R113). -/
theorem execStim_of_disarms {st : Stim} {s : State} (h : st.Disarms s) (hl : s.life = .armed) :
    ∃ life tr, life.over = true ∧ execStim st s = .next (s.withArming life false s.edgePrev tr) := by
  have hover : ∀ e : Bool, (if e then Life.faulted else Life.disarmed).over = true := by decide
  rcases h with ⟨e, rfl⟩ | ⟨e, d, rfl, hphase, hpend, hat⟩
  · refine ⟨_, ((s.disarm e).respond 0 false).trace, hover e, ?_⟩
    rw [execStim_disarm, State.disarm_of_armed s e hl]
    rfl
  · refine ⟨_, (s.takeEvent e).trace, hover e, ?_⟩
    rw [execStim_seq_dispatch s e d hphase hpend hl, State.takeEvent_of_atLimit_armed e (s.atLimit_iff.mpr hat) hl]
    rfl

/-- A disarming step is one as well where an edge has just been latched. -/
theorem Stim.Disarms.after_fall {st : Stim} {s : State} (h : st.Disarms s) :
    st.Disarms { s with edgePrev := false, pend := true } := by
  rcases h with hhost | ⟨e, d, hst, hphase, -, hat⟩
  · exact .inl hhost
  · exact .inr ⟨e, d, hst, hphase, rfl, hat⟩

/-- A falling edge and a disarming step, in either order: the step clears the edge latched before it, and after it none is
latched (R80, R92, R137). -/
theorem runStims_fall_and_disarms {st : Stim} {s : State} {stims : List Stim} (h : st.Disarms s)
    (hprev : s.edgePrev = true) (hl : s.life = .armed) (hstims : stims = [.line false, st] ∨ stims = [st, .line false]) :
    ∃ life tr, life.over = true ∧ runStims stims s = .next (s.withArming life false false tr) := by
  rcases hstims with rfl | rfl
  · obtain ⟨life, tr, hover, hexec⟩ := execStim_of_disarms h.after_fall hl
    exact ⟨life, tr, hover, runStims_pair (execStim_fall_of_armed hprev hl) hexec⟩
  · obtain ⟨life, tr, hover, hexec⟩ := execStim_of_disarms h hl
    have hended : life ≠ .armed := by rintro rfl; cases hover
    exact ⟨life, tr, hover, runStims_pair hexec (execStim_low_of_not_armed hended)⟩

end Sys2Proof.Machine
end

section
/-! Proofs of the exceptions family (spec/60_exceptions.md): failures that leave the course of the callback as it is, and
steps that fall at the same instant. -/

namespace Sys2Proof

open Machine

/-- Settles O38: by the phase; the step's equation holds for any draws, which go to the transients only. -/
theorem failuresDoNotAlterTheCourse : Obligations.FailuresDoNotAlterTheCourse := by
  intro s e e' d d' hphase
  rcases hphase with h | h | h <;> rw [h]
  · exact ⟨_, _, execStim_seq_hi s e d h, execStim_seq_hi s e' d' h, rfl, nofun, fun _ => ⟨rfl, rfl, rfl⟩, nofun⟩
  · exact ⟨_, _, execStim_seq_lo s e d h, execStim_seq_lo s e' d' h, rfl, nofun, fun _ => ⟨rfl, rfl, rfl⟩, nofun⟩
  · exact ⟨_, _, execStim_seq_smp s e d h, execStim_seq_smp s e' d' h, rfl, nofun, fun hne => absurd rfl hne,
      fun _ => ⟨rfl, rfl, rfl⟩⟩

/-- Settles O40: in each of the four orders a falling edge stands beside a disarming step (`runStims_fall_and_disarms`); in
IDLE with `PEND` 0 SEQ is not enabled. -/
theorem tiedEdgeAndDisarmIsNeverDelivered : Obligations.TiedEdgeAndDisarmIsNeverDelivered := by
  intro s e e' d stims hprev hl hphase hstims
  have htie : ∃ st : Stim, st.Disarms s ∧ (stims = [.line false, st] ∨ stims = [st, .line false]) := by
    rcases hstims with h | h | ⟨hpend, hat, h⟩
    · exact ⟨_, .inl ⟨e, rfl⟩, .inl h⟩
    · exact ⟨_, .inl ⟨e, rfl⟩, .inr h⟩
    · exact ⟨_, .inr ⟨e', d, rfl, hphase, hpend, hat⟩, h⟩
  obtain ⟨st, hst, horder⟩ := htie
  obtain ⟨life, tr, hover, hrun⟩ := runStims_fall_and_disarms hst hprev hl horder
  refine ⟨_, hrun, rfl, hover, ?_, rfl⟩
  rw [State.seqEnabled_eq_false_iff, wellFormedIn_seqNone]
  exact ⟨hphase, nofun⟩

/-- Settles O41: the accepting `DISPATCH` clears an edge latched before it and leaves the trigger armed for the next; `ARM`
keeps `PEND`, so only a fall after it is latched. -/
theorem tieOrderDecidesWhetherAnEdgeIsLatched : Obligations.TieOrderDecidesWhetherAnEdgeIsLatched := by
  intro s e d hprev hphase
  refine ⟨fun hl hpend hbelow => ?_, fun hl hpend => ?_⟩
  · have hedgeFirst := runStims_pair (execStim_fall_of_armed hprev hl)
      (execStim_seq_dispatch_of_below e d hphase rfl hl hbelow)
    have hedgeSecond := runStims_pair (execStim_seq_dispatch_of_below e d hphase hpend hl hbelow)
      (execStim_fall_of_armed hprev hl)
    exact ⟨_, _, hedgeFirst, hedgeSecond, rfl, rfl, rfl, rfl⟩
  · have hnot : s.life ≠ .armed := by simp [hl]
    have harmFirst := runStims_pair (execStim_arm_of_unarmed e hl) (execStim_fall_of_armed hprev rfl)
    have hedgeFirst := runStims_pair (execStim_low_of_not_armed hnot) (execStim_arm_of_unarmed e hl)
    exact ⟨_, _, harmFirst, hedgeFirst, rfl, rfl, rfl, hpend⟩

end Sys2Proof
end

section
/-! SUPPORT. A step that is not one of SEQ, and any step of a terminal state (R163, R172). -/

namespace Sys2Proof.Machine

/-- Terminal: SEQ is not enabled, and the trigger is over (R163). -/
theorem State.terminal_iff (s : State) : s.terminal = true ↔ s.seqEnabled = false ∧ s.life.over = true := by
  simp [State.terminal, State.quiescent]

/-- A trigger that is over is neither armed nor to be armed (R13). -/
theorem Life.over_iff (l : Life) : l.over = true ↔ l ≠ .unarmed ∧ l ≠ .armed := by
  cases l <;> simp [Life.over]

/-- A latched edge of an armed trigger is kept by LINE and HOST, but for a `DISARM`, which ends the trigger
(R80, R112, R113). -/
theorem pend_armed_of_not_seq {st : Stim} {s t : State} (hst : st.isSeq = false) (hpend : s.pend = true)
    (hl : s.life = .armed) (ht : execStim st s = .next t) :
    (t.pend = true ∧ t.life = .armed) ∨ (st.isDisarm = true ∧ t.life.over = true) := by
  cases st with
  | line v =>
    obtain rfl := Host.Outcome.next.inj ((execStim_line_eq s v).symm.trans ht)
    exact .inl ⟨by simp [hpend], hl⟩
  | seq e d => cases hst
  | host e cmd =>
    rcases execStim_host_cases s e cmd with ⟨-, h⟩ | ⟨rfl, h⟩ | ⟨-, -, data, err, h⟩ <;>
      obtain rfl := Host.Outcome.next.inj (h.symm.trans ht)
    · exact .inl ⟨hpend, by simp [hl]⟩
    · exact .inr ⟨rfl, by cases e <;> simp [hl, Life.over]⟩
    · exact .inl ⟨hpend, hl⟩

/-- From a terminal state a LINE step writes `EDGE_PREV` only, a SEQ step nothing, a HOST step its response only (R163). -/
theorem execStim_of_terminal {s : State} (st : Stim) (h : s.terminal = true) :
    ∃ v acts, execStim st s = .next { s with edgePrev := v, trace := s.trace ++ acts } ∧
      ∀ a ∈ acts, a.isResponse = true := by
  obtain ⟨hoff, hover⟩ := s.terminal_iff.mp h
  obtain ⟨hstarted, hended⟩ := s.life.over_iff.mp hover
  have hnone : s.trace ++ [] = s.trace := List.append_nil _
  have hresponse (data : Word) (err : Bool) : ∀ a ∈ [Action.rsp data err], a.isResponse = true :=
    List.forall_mem_singleton.mpr rfl
  cases st with
  | line v =>
    refine ⟨v, [], ?_, nofun⟩
    rw [hnone, execStim_line_eq, State.sampleLine_of_not_latched fun ⟨_, _, harmed⟩ => hended harmed]
  | seq e d =>
    refine ⟨s.edgePrev, [], ?_, nofun⟩
    rw [hnone, execStim_seq_of_not_enabled s e d hoff]
  | host e cmd =>
    rcases execStim_host_cases s e cmd with ⟨-, hexec⟩ | ⟨-, hexec⟩ | ⟨-, -, data, err, hexec⟩
    · refine ⟨s.edgePrev, [.rsp 0 false], ?_, hresponse 0 false⟩
      rw [hexec, State.arm, if_neg hstarted, State.respond_eq]
    · refine ⟨s.edgePrev, [.rsp 0 false], ?_, hresponse 0 false⟩
      rw [hexec, State.disarm_of_not_armed s e hended, State.respond_eq]
    · exact ⟨s.edgePrev, [.rsp data err], hexec, hresponse data err⟩

end Sys2Proof.Machine
end

section
/-! SUPPORT. Unending runs in which SEQ is weakly fair (R172): the invariant along a run, the rule by which a measure that every
SEQ step lowers leads to a goal, and that the SEQ steps left of a callback are such a measure. -/

namespace Sys2Proof.Machine

/-- A run goes on with the state its next step completes in. -/
theorem stateAt_succ {schedule : Nat → Stim} {s t : State} {n : Nat}
    (h : execStim (schedule n) (stateAt schedule s n) = .next t) : stateAt schedule s (n + 1) = t := by
  rw [stateAt, afterStim, h]

/-- The invariant holds all along an unending run. -/
theorem inv_stateAt {s : State} (schedule : Nat → Stim) (h : Inv s) (n : Nat) : Inv (stateAt schedule s n) := by
  induction n with
  | zero => exact h
  | succ n ih =>
    have hexec := execStim_eq (schedule n) (stateAt schedule s n)
    rw [stateAt_succ hexec]
    exact inv_exec ih hexec

/-- Progress by weak fairness: while a claim `waiting` keeps SEQ enabled, each SEQ step keeps it and lowers a measure, and any
other step reaches the goal, or keeps the claim and does not raise the measure, the goal is reached (R172). -/
theorem exists_ge_of_weaklyFair {schedule : Nat → Stim} {s : State} (hfair : WeaklyFair schedule s)
    {waiting : State → Prop} {goal : Nat → Prop} (measure : State → Nat)
    (henabled : ∀ n, waiting (stateAt schedule s n) → ¬ goal n → (stateAt schedule s n).seqEnabled = true)
    (hseq : ∀ n, waiting (stateAt schedule s n) → ¬ goal n → (schedule n).isSeq = true →
      waiting (stateAt schedule s (n + 1)) ∧ measure (stateAt schedule s (n + 1)) < measure (stateAt schedule s n))
    (hother : ∀ n, waiting (stateAt schedule s n) → ¬ goal n → (schedule n).isSeq = false → goal (n + 1) ∨
      waiting (stateAt schedule s (n + 1)) ∧ measure (stateAt schedule s (n + 1)) ≤ measure (stateAt schedule s n))
    (n : Nat) (hn : waiting (stateAt schedule s n)) : ∃ m, n ≤ m ∧ goal m := by
  induction hk : measure (stateAt schedule s n) using Nat.strong_induction_on generalizing n with
  | _ k ih =>
    subst hk
    by_contra hnever
    have hno : ∀ m, n ≤ m → ¬ goal m := fun m hm hgoal => hnever ⟨m, hm, hgoal⟩
    have hkept : ∀ m, n ≤ m → waiting (stateAt schedule s m) ∧
        measure (stateAt schedule s m) ≤ measure (stateAt schedule s n) := by
      intro m hm
      induction m, hm using Nat.le_induction with
      | base => exact ⟨hn, Nat.le_refl _⟩
      | succ m hm ihm =>
        obtain ⟨hw, hle⟩ := ihm
        cases hst : (schedule m).isSeq with
        | true =>
          obtain ⟨hw', hlt⟩ := hseq m hw (hno m hm) hst
          exact ⟨hw', (hlt.trans_le hle).le⟩
        | false =>
          obtain ⟨hw', hle'⟩ := (hother m hw (hno m hm) hst).resolve_left (hno (m + 1) (Nat.le_succ_of_le hm))
          exact ⟨hw', hle'.trans hle⟩
    obtain ⟨m, hm, hst⟩ := hfair n (henabled n hn (hno n (Nat.le_refl n)))
    obtain ⟨hw, hle⟩ := hkept m hm
    obtain ⟨hw', hlt⟩ := hseq m hw (hno m hm) hst
    obtain ⟨j, hj, hgoal⟩ := ih _ (hlt.trans_le hle) (m + 1) hw' rfl
    exact hno j (by omega) hgoal

/-- A SEQ step of a callback in progress leaves fewer of them, and keeps `LIFE` and `PEND` (R93 to R97). -/
theorem execStim_seq_of_busy {st : Stim} {s : State} (hst : st.isSeq = true) (hp : s.phase ≠ .idle) :
    ∃ t, execStim st s = .next t ∧ t.life = s.life ∧ t.pend = s.pend ∧ t.phase.stepsLeft < s.phase.stepsLeft := by
  cases st with
  | line v => cases hst
  | host e cmd => cases hst
  | seq e d =>
    obtain ⟨t, ht, hlife, hpend, -⟩ := microOp_passes_arming e d hp
    obtain ⟨u, hu, hlt⟩ := seqStepsLeft_lt_of_seq e d ((State.seqEnabled_iff s).mpr (.inl hp))
    obtain rfl := Host.Outcome.next.inj (ht.symm.trans hu)
    rw [State.seqStepsLeft, State.seqStepsLeft, hlife, hpend] at hlt
    exact ⟨t, ht, hlife, hpend, Nat.lt_of_add_lt_add_right hlt⟩

/-- In a weakly fair run every callback in progress returns to IDLE (R172). -/
theorem exists_ge_idle_of_weaklyFair {schedule : Nat → Stim} {s : State} (hfair : WeaklyFair schedule s) (n : Nat) :
    ∃ m, n ≤ m ∧ (stateAt schedule s m).phase = .idle := by
  refine exists_ge_of_weaklyFair (waiting := fun _ => True) hfair (fun u => u.phase.stepsLeft) ?_ ?_ ?_ n trivial
  · exact fun m _ hbusy => (State.seqEnabled_iff _).mpr (.inl hbusy)
  · intro m _ hbusy hst
    obtain ⟨t, ht, -, -, hlt⟩ := execStim_seq_of_busy hst hbusy
    exact ⟨trivial, by rwa [stateAt_succ ht]⟩
  · intro m _ _ hst
    obtain ⟨t, ht, hphase, -⟩ := phase_ind_of_not_seq (stateAt schedule s m) hst
    exact .inr ⟨trivial, by rw [stateAt_succ ht, hphase]⟩

/-- In a weakly fair run a latched edge of an armed trigger is dispatched, or the trigger ends (R172). -/
theorem exists_ge_dispatch_or_over_of_weaklyFair {schedule : Nat → Stim} {s : State} (hfair : WeaklyFair schedule s)
    {n : Nat} (hpend : (stateAt schedule s n).pend = true) (hl : (stateAt schedule s n).life = .armed) :
    ∃ m, n ≤ m ∧ ((schedule m).isSeq = true ∧ (stateAt schedule s m).phase = .idle ∧
        (stateAt schedule s m).pend = true ∧ (stateAt schedule s m).life = .armed
      ∨ (stateAt schedule s m).life.over = true) := by
  refine exists_ge_of_weaklyFair (waiting := fun u => u.pend = true ∧ u.life = .armed) hfair
    (fun u => u.phase.stepsLeft) ?_ ?_ ?_ n ⟨hpend, hl⟩
  · intro m ⟨hpend, hl⟩ _
    rw [State.seqEnabled_iff]
    tauto
  · intro m ⟨hpend, hl⟩ hno hst
    have hbusy : (stateAt schedule s m).phase ≠ .idle := fun hp => hno (.inl ⟨hst, hp, hpend, hl⟩)
    obtain ⟨t, ht, hlife, hpend', hlt⟩ := execStim_seq_of_busy hst hbusy
    rw [stateAt_succ ht]
    exact ⟨⟨hpend'.trans hpend, hlife.trans hl⟩, hlt⟩
  · intro m ⟨hpend, hl⟩ _ hst
    obtain ⟨t, ht, hphase, -⟩ := phase_ind_of_not_seq (stateAt schedule s m) hst
    rw [stateAt_succ ht, hphase]
    rcases pend_armed_of_not_seq hst hpend hl ht with hkept | ⟨-, hover⟩
    · exact .inr ⟨hkept, Nat.le_refl _⟩
    · exact .inl (.inr hover)

end Sys2Proof.Machine
end

section
/-! SUPPORT. The record of the initialization contract (R162, log 13): which items it holds after a list of them, and that no
operation reads or writes it. -/

namespace Sys2Proof

open Machine

namespace Machine

/-- Whether the record holds an item. -/
def Setup.holds (u : Setup) : SetupItem → Bool
  | .sampleSource => u.sampleSource
  | .indicatorOutput => u.indicatorOutput
  | .edgeSignal => u.edgeSignal

/-- The record is complete exactly where it holds every item. -/
theorem Setup.eq_complete_iff (u : Setup) : u = Setup.complete ↔ ∀ item, u.holds item = true := by
  constructor
  · rintro rfl item
    cases item <;> rfl
  · intro h
    cases u
    exact (Setup.mk.injEq ..).mpr ⟨h .sampleSource, h .indicatorOutput, h .edgeSignal⟩

/-- Performing an item adds it to the record. -/
theorem Setup.holds_perform (u : Setup) (done item : SetupItem) :
    (u.perform done).holds item = true ↔ item = done ∨ u.holds item = true := by
  cases done <;> cases item <;> simp [Setup.perform, Setup.holds]

/-- The record after a list of items, in their order. -/
def Setup.performAll : List SetupItem → Setup → Setup
  | [], u => u
  | item :: rest, u => Setup.performAll rest (u.perform item)

/-- A list of items adds those in it, in whatever order. -/
theorem Setup.holds_performAll (items : List SetupItem) (u : Setup) (item : SetupItem) :
    (u.performAll items).holds item = true ↔ item ∈ items ∨ u.holds item = true := by
  induction items generalizing u with
  | nil => simp [Setup.performAll]
  | cons done rest ih =>
    rw [Setup.performAll, ih, Setup.holds_perform, List.mem_cons]
    tauto

/-- From the empty record, a list of items completes it exactly where none is missing. -/
theorem Setup.performAll_nothing_eq_complete_iff (items : List SetupItem) :
    Setup.nothing.performAll items = Setup.complete ↔ ∀ item, item ∈ items := by
  have hnothing (item : SetupItem) : Setup.nothing.holds item = false := by cases item <;> rfl
  simp [Setup.eq_complete_iff, Setup.holds_performAll, hnothing]

/-- Before arming, the host's items are recorded and change nothing else (R162, R173). -/
theorem runListed_setup_append (items : List SetupItem) (rest : List Input) {s : State} (hl : s.life = .unarmed) :
    runListed (items.map Input.setup ++ rest) s = runListed rest { s with setup := s.setup.performAll items } := by
  induction items generalizing s with
  | nil => rfl
  | cons item items ih =>
    have hitem : execInput (.setup item) s = .next { s with setup := s.setup.perform item } := by
      rw [execInput, State.configure, if_pos hl]
    rw [List.map_cons, List.cons_append, runListed, hitem]
    exact ih hl

/-- The disarm primitive does not read the record. -/
theorem State.disarm_setup_eq (s : State) (u : Setup) (e : Bool) :
    ({ s with setup := u } : State).disarm e = { s.disarm e with setup := u } := by
  by_cases hl : s.life = .armed
  · simp [State.disarm_of_armed, hl]
  · simp [State.disarm_of_not_armed, hl]

/-- Entry to the callback does not read the record. -/
theorem State.takeEvent_setup_eq (s : State) (u : Setup) (e : Bool) :
    ({ s with setup := u } : State).takeEvent e = { s.takeEvent e with setup := u } := by
  have hsame : ({ s with setup := u } : State).atLimit = s.atLimit := rfl
  cases hat : s.atLimit with
  | true =>
    rw [State.takeEvent_of_atLimit s e hat, State.takeEvent_of_atLimit _ e (hsame.trans hat)]
    exact State.disarm_setup_eq { s with pend := false } u e
  | false => rw [State.takeEvent_of_below s e hat, State.takeEvent_of_below _ e (hsame.trans hat)]

end Machine

/-- No operation writes the record. -/
theorem Instr.effect_setup (i : Instr) (s : State) : (i.effect s).setup = s.setup := by
  cases i <;> simp [Instr.effect]

/-- No operation reads the record. -/
theorem Instr.effect_setup_eq (i : Instr) (s : State) (u : Setup) :
    i.effect { s with setup := u } = { i.effect s with setup := u } := by
  cases i with
  | dispatch e => exact s.takeEvent_setup_eq u e
  | disarm e => exact congrArg (State.respond 0 false) (s.disarm_setup_eq u e)
  | hi e | lo e | smp e d => cases e <;> rfl
  | _ => rfl

/-- No operation takes the trigger back to UNARMED (R13). -/
theorem Instr.effect_life_ne_unarmed (i : Instr) {s : State} (h : s.life ≠ .unarmed) : (i.effect s).life ≠ .unarmed := by
  rcases i.effect_life_cases s with hl | ⟨-, hl, -⟩ | ⟨-, hl, -⟩ | ⟨-, hl, -⟩ <;> rw [hl]
  · exact h
  all_goals decide

end Sys2Proof
end

section
/-! Proofs of the reset and hazards family (spec/70_reset_and_hazards.md): reset, terminal states, progress under weak fairness,
and the initialization contract. -/

namespace Sys2Proof

open Machine

/-- Settles O44: with a valid rest the listed reset happens, on the state with it taken off. -/
theorem resetAbandonsEverything : Obligations.ResetAbandonsEverything := by
  intro s rest hs hvalid
  have hlist : scriptValid (.rst :: rest) = true := (scriptValid_rst rest).trans hvalid
  rw [step_of_valid hs hlist]
  rfl

/-- Settles O47: `execStim_of_terminal`; being terminal is read off `LIFE`, `PEND` and `PHASE` alone. -/
theorem terminalStateStaysTerminal : Obligations.TerminalStateStaysTerminal := by
  intro s st hterm
  obtain ⟨v, acts, hexec, hacts⟩ := execStim_of_terminal st hterm
  exact ⟨_, hexec, hterm, rfl, acts, rfl, hacts⟩

/-- Settles O52: LINE and HOST keep `PHASE`; where it is IDLE, SEQ is enabled by a latched edge of an armed trigger, which only
a `DISARM` drops (`pend_armed_of_not_seq`). -/
theorem enabledSeqStepStaysEnabled : Obligations.EnabledSeqStepStaysEnabled := by
  intro s st hen hst
  obtain ⟨t, ht, hphase, -⟩ := phase_ind_of_not_seq s hst
  refine ⟨t, ht, hphase, ?_⟩
  rw [State.seqEnabled_iff, hphase]
  rcases s.seqEnabled_iff.mp hen with hbusy | ⟨hidle, hpend, hl⟩
  · exact .inl (.inl hbusy)
  · rcases pend_armed_of_not_seq hst hpend hl ht with hkept | ⟨hdisarm, -⟩
    · exact .inl (.inr ⟨hidle, hkept⟩)
    · exact .inr ⟨hidle, hdisarm⟩

/-- Settles O54: the two progress lemmas; by the invariant the indicator is low in IDLE (V5), and an edge is pending only while
the trigger is armed (V2). -/
theorem fairRunFinishesEveryCallback : Obligations.FairRunFinishesEveryCallback := by
  intro s schedule hInv hfair
  refine ⟨fun n => ?_, fun n hpend => ?_⟩
  · obtain ⟨m, hm, hidle⟩ := exists_ge_idle_of_weaklyFair hfair n
    obtain ⟨-, -, -, -, -, -, hclean, -⟩ := (inv_iff _).mp (inv_stateAt schedule hInv m)
    exact ⟨m, hm, hidle, (hclean hidle).1⟩
  · obtain ⟨-, -, hlatch, -⟩ := (inv_iff _).mp (inv_stateAt schedule hInv n)
    have hl : (stateAt schedule s n).life = .armed := by
      by_contra hl
      simp [hlatch hl] at hpend
    exact exists_ge_dispatch_or_over_of_weaklyFair hfair hpend hl

/-- Settles O59: the items are recorded (`runListed_setup_append`), then `ARM` arms; the record is complete exactly where no
item is missing. -/
theorem initContractThenArmIsArmedZero : Obligations.InitContractThenArmIsArmedZero := by
  intro c items
  have hword : 0x80001#20 = (Stim.host false 0b001#3).toWord := rfl
  refine ⟨_, Setup.nothing.performAll items, ?_, rfl, rfl, ?_⟩
  · rw [runListed_setup_append items _ rfl, runListed, hword, execInput_toWord, execStim_arm_of_unarmed false rfl]
    rfl
  · exact (and_iff_left nofun).trans (Setup.performAll_nothing_eq_complete_iff items)

/-- Settles O60: an operation writes no record and never goes back to UNARMED, and outside UNARMED nothing is recorded; nor
does an operation read the record (`effect_setup_eq`). -/
theorem initContractIsKeptAndChangesNoStep : Obligations.InitContractIsKeptAndChangesNoStep := by
  constructor
  · intro s t hl hstep
    obtain ⟨u, hu, hcase⟩ := step_next hstep
    generalize u.script = inputs, u.tick = n at hu
    subst hu
    rcases hcase with ⟨i, hi⟩ | rfl | ⟨item, rfl⟩
    · obtain ⟨-, rfl⟩ := (exec_next_iff i _ t).mp hi
      refine .inl (and_congr ?_ (iff_of_true (i.effect_life_ne_unarmed hl) hl))
      rw [i.effect_setup]
    · exact .inr rfl
    · refine .inl (and_congr ?_ Iff.rfl)
      rw [State.configure_setup, if_neg hl]
  · intro s ⟨hsetup, hl⟩ hInv st
    have hexec := execStim_eq st s
    refine ⟨_, hexec, ⟨?_, Instr.effect_life_ne_unarmed _ hl⟩, inv_exec hInv hexec, fun u => ?_⟩
    · rw [Instr.effect_setup, hsetup]
    · rw [← Instr.effect_setup_eq]
      exact execStim_eq st { s with setup := u }

end Sys2Proof
end
